-- ==== Sys2Proof/Word.lean ====
section
/-! DEFINITION. The two widths of the hardware (00_scope R8, R10): a byte and a 16-bit word.
Arithmetic on both wraps (R11), which is what `BitVec` addition and subtraction do. -/

namespace Sys2Proof

/-- A byte: a data register, a bus datum, an opcode (R8). -/
abbrev Byte := BitVec 8

/-- A word: the program counter, a bus address (R8). -/
abbrev Word := BitVec 16

end Sys2Proof
end

