-- ==== Sys2Proof/Config.lean ====
section
/-! DEFINITION. What the spec fixes for the machine as a whole: the parameters of 00_scope R9 at the values it takes, the
vector addresses, what a memory byte that nothing has written reads as, and the devices behind the bus, left uninterpreted.
The parameters IMPLEMENTED (all 56 mnemonics), DECIMAL_ARITH (false) and CYCLE_PENALTIES (false) have no other value the spec
gives rules for, so no definition here stands for them (log 8). -/

namespace Sys2Proof.Config

/-- RESET_S (R9, R40). -/
def resetS : Byte := 0xFD

/-- RESET_VECTOR (R9, R59, R260): low byte here, high byte at the next address. -/
def resetVector : Word := 0xFFFC

/-- BRK_VECTOR (R9, R59, R214). -/
def brkVector : Word := 0xFFFE

/-- The NMI vector: the core never reads it; only the host's emulation does (R59, R236). -/
def nmiVector : Word := 0xFFFA

/-- JMP_IND_PAGE_WRAP (R9, R103, 92 D4). -/
def jmpIndPageWrap : Bool := true

/-- What an address that the memory list does not hold reads as.  DESIGN CHOICE (log 2), unsafe: the spec leaves the contents
of memory open (R262). -/
def unlistedByte : Byte := 0x00

/-- What the devices behind the bus answer to a read of an address, and their state after it: a read may change it (R9, R50, 92
D16).  Uninterpreted: the spec leaves the bus open, so nothing here gives it a value (log 12). -/
opaque deviceRead : Nat → Word → Byte × Nat

/-- The state of the devices after a write (R9, R50, 92 D16).  Uninterpreted (log 12). -/
opaque deviceWrite : Nat → Word → Byte → Nat

end Sys2Proof.Config
end

