-- ==== Sys2Proof/Syntax.lean ====
section
/-! DEFINITION. The instructions as syntax (30_encoding R70 to R78; 00_scope R3, R13).
`Instr` has one constructor for each of the 151 rows (mnemonic, addressing mode) of the opcode matrix R76, carrying the row's
operand bytes, and one constructor `unimpl` for the 105 rows of R77, which differ in nothing but the opcode byte it carries
(log 6). -/

namespace Sys2Proof

/-- The 13 addressing modes by the codes of 00_scope R13, and `none`, which the table gives an unimplemented byte (R75). -/
inductive Mode where
  | imp | acc | imm | zp | zpx | zpy | rel | abs | abx | aby | ind | izx | izy | none
  deriving DecidableEq, Repr

/-- The 56 official mnemonics (R3, R76) and the table's pseudo-mnemonic UNIMPL (R77), by family. -/
inductive Mnemonic where
  | LDA | LDX | LDY | STA | STX | STY
  | TAX | TAY | TXA | TYA | TSX | TXS
  | INX | INY | DEX | DEY | INC | DEC
  | CMP | CPX | CPY
  | BPL | BMI | BVC | BVS | BCC | BCS | BNE | BEQ
  | JMP | JSR | RTS
  | CLC | SEC | CLI | SEI | CLV | CLD | SED
  | ADC | SBC | AND | ORA | EOR | BIT
  | ASL | LSR | ROL | ROR
  | PHA | PLA | PHP | PLP | BRK | RTI | NOP | UNIMPL
  deriving DecidableEq, Repr

/-- One constructor per row of the opcode table, by family.  A field `d8` is the operand byte of format F2, `addr` the word
`{hi, lo}` of the two operand bytes of format F3 (R70), `opcode` the unimplemented byte itself. -/
inductive Instr where
  -- Load and store (41_load_store)
  | ldaImm (d8 : Byte) | ldaZp (d8 : Byte) | ldaZpx (d8 : Byte) | ldaAbs (addr : Word) | ldaAbx (addr : Word)
  | ldaAby (addr : Word) | ldaIzx (d8 : Byte) | ldaIzy (d8 : Byte)
  | ldxImm (d8 : Byte) | ldxZp (d8 : Byte) | ldxZpy (d8 : Byte) | ldxAbs (addr : Word) | ldxAby (addr : Word)
  | ldyImm (d8 : Byte) | ldyZp (d8 : Byte) | ldyZpx (d8 : Byte) | ldyAbs (addr : Word) | ldyAbx (addr : Word)
  | staZp (d8 : Byte) | staZpx (d8 : Byte) | staAbs (addr : Word) | staAbx (addr : Word) | staAby (addr : Word)
  | staIzx (d8 : Byte) | staIzy (d8 : Byte)
  | stxZp (d8 : Byte) | stxZpy (d8 : Byte) | stxAbs (addr : Word)
  | styZp (d8 : Byte) | styZpx (d8 : Byte) | styAbs (addr : Word)
  -- Register transfer (42_transfer)
  | tax | tay | txa | tya | tsx | txs
  -- Increment and decrement (43_increment_decrement)
  | inx | iny | dex | dey
  | incZp (d8 : Byte) | incZpx (d8 : Byte) | incAbs (addr : Word) | incAbx (addr : Word)
  | decZp (d8 : Byte) | decZpx (d8 : Byte) | decAbs (addr : Word) | decAbx (addr : Word)
  -- Compare (44_compare)
  | cmpImm (d8 : Byte) | cmpZp (d8 : Byte) | cmpZpx (d8 : Byte) | cmpAbs (addr : Word) | cmpAbx (addr : Word)
  | cmpAby (addr : Word) | cmpIzx (d8 : Byte) | cmpIzy (d8 : Byte)
  | cpxImm (d8 : Byte) | cpxZp (d8 : Byte) | cpxAbs (addr : Word)
  | cpyImm (d8 : Byte) | cpyZp (d8 : Byte) | cpyAbs (addr : Word)
  -- Conditional branch (45_branch)
  | bpl (d8 : Byte) | bmi (d8 : Byte) | bvc (d8 : Byte) | bvs (d8 : Byte) | bcc (d8 : Byte) | bcs (d8 : Byte)
  | bne (d8 : Byte) | beq (d8 : Byte)
  -- Jump, call, return (46_jump_call_return)
  | jmpAbs (addr : Word) | jmpInd (addr : Word)
  | jsr (addr : Word) | rts
  -- Flag set and clear (47_flag_set_clear)
  | clc | sec | cli | sei | clv | cld | sed
  -- Arithmetic, logic, bit test (48_alu_shift)
  | adcImm (d8 : Byte) | adcZp (d8 : Byte) | adcZpx (d8 : Byte) | adcAbs (addr : Word) | adcAbx (addr : Word)
  | adcAby (addr : Word) | adcIzx (d8 : Byte) | adcIzy (d8 : Byte)
  | sbcImm (d8 : Byte) | sbcZp (d8 : Byte) | sbcZpx (d8 : Byte) | sbcAbs (addr : Word) | sbcAbx (addr : Word)
  | sbcAby (addr : Word) | sbcIzx (d8 : Byte) | sbcIzy (d8 : Byte)
  | andImm (d8 : Byte) | andZp (d8 : Byte) | andZpx (d8 : Byte) | andAbs (addr : Word) | andAbx (addr : Word)
  | andAby (addr : Word) | andIzx (d8 : Byte) | andIzy (d8 : Byte)
  | oraImm (d8 : Byte) | oraZp (d8 : Byte) | oraZpx (d8 : Byte) | oraAbs (addr : Word) | oraAbx (addr : Word)
  | oraAby (addr : Word) | oraIzx (d8 : Byte) | oraIzy (d8 : Byte)
  | eorImm (d8 : Byte) | eorZp (d8 : Byte) | eorZpx (d8 : Byte) | eorAbs (addr : Word) | eorAbx (addr : Word)
  | eorAby (addr : Word) | eorIzx (d8 : Byte) | eorIzy (d8 : Byte)
  | bitZp (d8 : Byte) | bitAbs (addr : Word)
  -- Shift and rotate (48_alu_shift)
  | aslAcc | aslZp (d8 : Byte) | aslZpx (d8 : Byte) | aslAbs (addr : Word) | aslAbx (addr : Word)
  | lsrAcc | lsrZp (d8 : Byte) | lsrZpx (d8 : Byte) | lsrAbs (addr : Word) | lsrAbx (addr : Word)
  | rolAcc | rolZp (d8 : Byte) | rolZpx (d8 : Byte) | rolAbs (addr : Word) | rolAbx (addr : Word)
  | rorAcc | rorZp (d8 : Byte) | rorZpx (d8 : Byte) | rorAbs (addr : Word) | rorAbx (addr : Word)
  -- Stack, system, unimplemented bytes (49_stack_system)
  | pha | pla | php | plp | brk | rti | nop | unimpl (opcode : Byte)
  deriving DecidableEq, Repr

end Sys2Proof
end

