-- ==== Sys2Proof/Decode.lean ====
section
/-! DEFINITION. Decoding and encoding (30_encoding R70 to R77), the table's base cycle counts (70_reset_and_hazards R268), and
the byte-order helpers (20_memory R52).
The table is total over the 256 opcode bytes (R73); the only thing the list decoder can refuse is a list that ends before the
instruction does, and it refuses that by name. -/

namespace Sys2Proof

/-- `{hi, lo}`: the word `hi * 256 + lo` (00_scope R10). -/
def joinBytes (hi lo : Byte) : Word := hi ++ lo

/-- Bits 7:0 of a word. -/
def lowByte (w : Word) : Byte := w.extractLsb' 0 8

/-- Bits 15:8 of a word. -/
def highByte (w : Word) : Byte := w.extractLsb' 8 8

/-- `zext_16` (00_scope R12). -/
def zext16 (b : Byte) : Word := b.setWidth 16

/-- `sext_16` (00_scope R12): bits 15:8 all equal to bit 7. -/
def sext16 (b : Byte) : Word := b.signExtend 16

/-- The mnemonic of each row (R76, R77). -/
def Instr.mnemonic : Instr → Mnemonic
  | .ldaImm _ | .ldaZp _ | .ldaZpx _ | .ldaAbs _ | .ldaAbx _ | .ldaAby _ | .ldaIzx _ | .ldaIzy _ => .LDA
  | .ldxImm _ | .ldxZp _ | .ldxZpy _ | .ldxAbs _ | .ldxAby _ => .LDX
  | .ldyImm _ | .ldyZp _ | .ldyZpx _ | .ldyAbs _ | .ldyAbx _ => .LDY
  | .staZp _ | .staZpx _ | .staAbs _ | .staAbx _ | .staAby _ | .staIzx _ | .staIzy _ => .STA
  | .stxZp _ | .stxZpy _ | .stxAbs _ => .STX
  | .styZp _ | .styZpx _ | .styAbs _ => .STY
  | .tax => .TAX
  | .tay => .TAY
  | .txa => .TXA
  | .tya => .TYA
  | .tsx => .TSX
  | .txs => .TXS
  | .inx => .INX
  | .iny => .INY
  | .dex => .DEX
  | .dey => .DEY
  | .incZp _ | .incZpx _ | .incAbs _ | .incAbx _ => .INC
  | .decZp _ | .decZpx _ | .decAbs _ | .decAbx _ => .DEC
  | .cmpImm _ | .cmpZp _ | .cmpZpx _ | .cmpAbs _ | .cmpAbx _ | .cmpAby _ | .cmpIzx _ | .cmpIzy _ => .CMP
  | .cpxImm _ | .cpxZp _ | .cpxAbs _ => .CPX
  | .cpyImm _ | .cpyZp _ | .cpyAbs _ => .CPY
  | .bpl _ => .BPL
  | .bmi _ => .BMI
  | .bvc _ => .BVC
  | .bvs _ => .BVS
  | .bcc _ => .BCC
  | .bcs _ => .BCS
  | .bne _ => .BNE
  | .beq _ => .BEQ
  | .jmpAbs _ | .jmpInd _ => .JMP
  | .jsr _ => .JSR
  | .rts => .RTS
  | .clc => .CLC
  | .sec => .SEC
  | .cli => .CLI
  | .sei => .SEI
  | .clv => .CLV
  | .cld => .CLD
  | .sed => .SED
  | .adcImm _ | .adcZp _ | .adcZpx _ | .adcAbs _ | .adcAbx _ | .adcAby _ | .adcIzx _ | .adcIzy _ => .ADC
  | .sbcImm _ | .sbcZp _ | .sbcZpx _ | .sbcAbs _ | .sbcAbx _ | .sbcAby _ | .sbcIzx _ | .sbcIzy _ => .SBC
  | .andImm _ | .andZp _ | .andZpx _ | .andAbs _ | .andAbx _ | .andAby _ | .andIzx _ | .andIzy _ => .AND
  | .oraImm _ | .oraZp _ | .oraZpx _ | .oraAbs _ | .oraAbx _ | .oraAby _ | .oraIzx _ | .oraIzy _ => .ORA
  | .eorImm _ | .eorZp _ | .eorZpx _ | .eorAbs _ | .eorAbx _ | .eorAby _ | .eorIzx _ | .eorIzy _ => .EOR
  | .bitZp _ | .bitAbs _ => .BIT
  | .aslAcc | .aslZp _ | .aslZpx _ | .aslAbs _ | .aslAbx _ => .ASL
  | .lsrAcc | .lsrZp _ | .lsrZpx _ | .lsrAbs _ | .lsrAbx _ => .LSR
  | .rolAcc | .rolZp _ | .rolZpx _ | .rolAbs _ | .rolAbx _ => .ROL
  | .rorAcc | .rorZp _ | .rorZpx _ | .rorAbs _ | .rorAbx _ => .ROR
  | .pha => .PHA
  | .pla => .PLA
  | .php => .PHP
  | .plp => .PLP
  | .brk => .BRK
  | .rti => .RTI
  | .nop => .NOP
  | .unimpl _ => .UNIMPL

/-- The addressing mode of each row (R76, R77). -/
def Instr.mode : Instr → Mode
  | .tax | .tay | .txa | .tya | .tsx | .txs | .inx | .iny | .dex | .dey | .rts | .clc | .sec | .cli | .sei
  | .clv | .cld | .sed | .pha | .pla | .php | .plp | .brk | .rti | .nop => .imp
  | .aslAcc | .lsrAcc | .rolAcc | .rorAcc => .acc
  | .ldaImm _ | .ldxImm _ | .ldyImm _ | .cmpImm _ | .cpxImm _ | .cpyImm _ | .adcImm _ | .sbcImm _ | .andImm _
  | .oraImm _ | .eorImm _ => .imm
  | .ldaZp _ | .ldxZp _ | .ldyZp _ | .staZp _ | .stxZp _ | .styZp _ | .incZp _ | .decZp _ | .cmpZp _ | .cpxZp _
  | .cpyZp _ | .adcZp _ | .sbcZp _ | .andZp _ | .oraZp _ | .eorZp _ | .bitZp _ | .aslZp _ | .lsrZp _ | .rolZp _
  | .rorZp _ => .zp
  | .ldaZpx _ | .ldyZpx _ | .staZpx _ | .styZpx _ | .incZpx _ | .decZpx _ | .cmpZpx _ | .adcZpx _ | .sbcZpx _
  | .andZpx _ | .oraZpx _ | .eorZpx _ | .aslZpx _ | .lsrZpx _ | .rolZpx _ | .rorZpx _ => .zpx
  | .ldxZpy _ | .stxZpy _ => .zpy
  | .bpl _ | .bmi _ | .bvc _ | .bvs _ | .bcc _ | .bcs _ | .bne _ | .beq _ => .rel
  | .ldaAbs _ | .ldxAbs _ | .ldyAbs _ | .staAbs _ | .stxAbs _ | .styAbs _ | .incAbs _ | .decAbs _ | .cmpAbs _
  | .cpxAbs _ | .cpyAbs _ | .jmpAbs _ | .jsr _ | .adcAbs _ | .sbcAbs _ | .andAbs _ | .oraAbs _ | .eorAbs _
  | .bitAbs _ | .aslAbs _ | .lsrAbs _ | .rolAbs _ | .rorAbs _ => .abs
  | .ldaAbx _ | .ldyAbx _ | .staAbx _ | .incAbx _ | .decAbx _ | .cmpAbx _ | .adcAbx _ | .sbcAbx _ | .andAbx _
  | .oraAbx _ | .eorAbx _ | .aslAbx _ | .lsrAbx _ | .rolAbx _ | .rorAbx _ => .abx
  | .ldaAby _ | .ldxAby _ | .staAby _ | .cmpAby _ | .adcAby _ | .sbcAby _ | .andAby _ | .oraAby _ | .eorAby _
  => .aby
  | .jmpInd _ => .ind
  | .ldaIzx _ | .staIzx _ | .cmpIzx _ | .adcIzx _ | .sbcIzx _ | .andIzx _ | .oraIzx _ | .eorIzx _ => .izx
  | .ldaIzy _ | .staIzy _ | .cmpIzy _ | .adcIzy _ | .sbcIzy _ | .andIzy _ | .oraIzy _ | .eorIzy _ => .izy
  | .unimpl _ => .none

/-- How many bytes an instruction of a mode occupies (R70, R72); the one byte of an unimplemented row is its opcode (R217). -/
def Mode.length : Mode → Nat
  | .imp | .acc | .none => 1
  | .imm | .zp | .zpx | .zpy | .rel | .izx | .izy => 2
  | .abs | .abx | .aby | .ind => 3

/-- The length of an instruction in bytes, told by its row's mode alone (R72). -/
def Instr.length (i : Instr) : Nat := i.mode.length

/-- R268, the row "read". -/
def readCycles : Mode → Option Nat
  | .imm => some 2
  | .zp => some 3
  | .zpx | .zpy | .abs | .abx | .aby => some 4
  | .izy => some 5
  | .izx => some 6
  | _ => none

/-- R268, the row "write". -/
def writeCycles : Mode → Option Nat
  | .zp => some 3
  | .zpx | .zpy | .abs => some 4
  | .abx | .aby => some 5
  | .izx | .izy => some 6
  | _ => none

/-- R268, the row "read-modify-write". -/
def modifyCycles : Mode → Option Nat
  | .acc => some 2
  | .zp => some 5
  | .zpx | .abs => some 6
  | .abx => some 7
  | _ => none

/-- R268: base cycle counts by mode and kind of instruction; an unimplemented byte has none. -/
def baseCyclesOf : Mnemonic → Mode → Option Nat
  | .LDA, m | .LDX, m | .LDY, m | .ADC, m | .SBC, m | .AND, m | .ORA, m | .EOR, m | .CMP, m | .CPX, m | .CPY, m
  | .BIT, m => readCycles m
  | .STA, m | .STX, m | .STY, m => writeCycles m
  | .INC, m | .DEC, m | .ASL, m | .LSR, m | .ROL, m | .ROR, m => modifyCycles m
  | .TAX, _ | .TAY, _ | .TXA, _ | .TYA, _ | .TSX, _ | .TXS, _ | .INX, _ | .INY, _ | .DEX, _ | .DEY, _ => some 2
  | .CLC, _ | .SEC, _ | .CLI, _ | .SEI, _ | .CLV, _ | .CLD, _ | .SED, _ | .NOP, _ => some 2
  | .BPL, _ | .BMI, _ | .BVC, _ | .BVS, _ | .BCC, _ | .BCS, _ | .BNE, _ | .BEQ, _ => some 2
  | .JMP, .ind => some 5
  | .JMP, _ => some 3
  | .JSR, _ | .RTS, _ | .RTI, _ => some 6
  | .BRK, _ => some 7
  | .PHA, _ | .PHP, _ => some 3
  | .PLA, _ | .PLP, _ => some 4
  | .UNIMPL, _ => none

/-- The base cycle count of an instruction's table entry (R71, R108). -/
def Instr.baseCycles (i : Instr) : Option Nat := baseCyclesOf i.mnemonic i.mode

/-- What the table holds for an opcode byte: the instruction awaiting its operand bytes, by format (R70, R71), or the marker
"unimplemented" (R73). -/
inductive Entry where
  | f1 (i : Instr)
  | f2 (make : Byte → Instr)
  | f3 (make : Word → Instr)
  | unimpl

/-- Row 0x of the matrix R76. -/
def opcodeRow0 : List Entry :=
  [.f1 .brk, .f2 .oraIzx, .unimpl, .unimpl, .unimpl, .f2 .oraZp, .f2 .aslZp, .unimpl, .f1 .php, .f2 .oraImm,
   .f1 .aslAcc, .unimpl, .unimpl, .f3 .oraAbs, .f3 .aslAbs, .unimpl]

/-- Row 1x of the matrix R76. -/
def opcodeRow1 : List Entry :=
  [.f2 .bpl, .f2 .oraIzy, .unimpl, .unimpl, .unimpl, .f2 .oraZpx, .f2 .aslZpx, .unimpl, .f1 .clc,
   .f3 .oraAby, .unimpl, .unimpl, .unimpl, .f3 .oraAbx, .f3 .aslAbx, .unimpl]

/-- Row 2x of the matrix R76. -/
def opcodeRow2 : List Entry :=
  [.f3 .jsr, .f2 .andIzx, .unimpl, .unimpl, .f2 .bitZp, .f2 .andZp, .f2 .rolZp, .unimpl, .f1 .plp,
   .f2 .andImm, .f1 .rolAcc, .unimpl, .f3 .bitAbs, .f3 .andAbs, .f3 .rolAbs, .unimpl]

/-- Row 3x of the matrix R76. -/
def opcodeRow3 : List Entry :=
  [.f2 .bmi, .f2 .andIzy, .unimpl, .unimpl, .unimpl, .f2 .andZpx, .f2 .rolZpx, .unimpl, .f1 .sec,
   .f3 .andAby, .unimpl, .unimpl, .unimpl, .f3 .andAbx, .f3 .rolAbx, .unimpl]

/-- Row 4x of the matrix R76. -/
def opcodeRow4 : List Entry :=
  [.f1 .rti, .f2 .eorIzx, .unimpl, .unimpl, .unimpl, .f2 .eorZp, .f2 .lsrZp, .unimpl, .f1 .pha, .f2 .eorImm,
   .f1 .lsrAcc, .unimpl, .f3 .jmpAbs, .f3 .eorAbs, .f3 .lsrAbs, .unimpl]

/-- Row 5x of the matrix R76. -/
def opcodeRow5 : List Entry :=
  [.f2 .bvc, .f2 .eorIzy, .unimpl, .unimpl, .unimpl, .f2 .eorZpx, .f2 .lsrZpx, .unimpl, .f1 .cli,
   .f3 .eorAby, .unimpl, .unimpl, .unimpl, .f3 .eorAbx, .f3 .lsrAbx, .unimpl]

/-- Row 6x of the matrix R76. -/
def opcodeRow6 : List Entry :=
  [.f1 .rts, .f2 .adcIzx, .unimpl, .unimpl, .unimpl, .f2 .adcZp, .f2 .rorZp, .unimpl, .f1 .pla, .f2 .adcImm,
   .f1 .rorAcc, .unimpl, .f3 .jmpInd, .f3 .adcAbs, .f3 .rorAbs, .unimpl]

/-- Row 7x of the matrix R76. -/
def opcodeRow7 : List Entry :=
  [.f2 .bvs, .f2 .adcIzy, .unimpl, .unimpl, .unimpl, .f2 .adcZpx, .f2 .rorZpx, .unimpl, .f1 .sei,
   .f3 .adcAby, .unimpl, .unimpl, .unimpl, .f3 .adcAbx, .f3 .rorAbx, .unimpl]

/-- Row 8x of the matrix R76. -/
def opcodeRow8 : List Entry :=
  [.unimpl, .f2 .staIzx, .unimpl, .unimpl, .f2 .styZp, .f2 .staZp, .f2 .stxZp, .unimpl, .f1 .dey, .unimpl,
   .f1 .txa, .unimpl, .f3 .styAbs, .f3 .staAbs, .f3 .stxAbs, .unimpl]

/-- Row 9x of the matrix R76. -/
def opcodeRow9 : List Entry :=
  [.f2 .bcc, .f2 .staIzy, .unimpl, .unimpl, .f2 .styZpx, .f2 .staZpx, .f2 .stxZpy, .unimpl, .f1 .tya,
   .f3 .staAby, .f1 .txs, .unimpl, .unimpl, .f3 .staAbx, .unimpl, .unimpl]

/-- Row Ax of the matrix R76. -/
def opcodeRowA : List Entry :=
  [.f2 .ldyImm, .f2 .ldaIzx, .f2 .ldxImm, .unimpl, .f2 .ldyZp, .f2 .ldaZp, .f2 .ldxZp, .unimpl, .f1 .tay,
   .f2 .ldaImm, .f1 .tax, .unimpl, .f3 .ldyAbs, .f3 .ldaAbs, .f3 .ldxAbs, .unimpl]

/-- Row Bx of the matrix R76. -/
def opcodeRowB : List Entry :=
  [.f2 .bcs, .f2 .ldaIzy, .unimpl, .unimpl, .f2 .ldyZpx, .f2 .ldaZpx, .f2 .ldxZpy, .unimpl, .f1 .clv,
   .f3 .ldaAby, .f1 .tsx, .unimpl, .f3 .ldyAbx, .f3 .ldaAbx, .f3 .ldxAby, .unimpl]

/-- Row Cx of the matrix R76. -/
def opcodeRowC : List Entry :=
  [.f2 .cpyImm, .f2 .cmpIzx, .unimpl, .unimpl, .f2 .cpyZp, .f2 .cmpZp, .f2 .decZp, .unimpl, .f1 .iny,
   .f2 .cmpImm, .f1 .dex, .unimpl, .f3 .cpyAbs, .f3 .cmpAbs, .f3 .decAbs, .unimpl]

/-- Row Dx of the matrix R76. -/
def opcodeRowD : List Entry :=
  [.f2 .bne, .f2 .cmpIzy, .unimpl, .unimpl, .unimpl, .f2 .cmpZpx, .f2 .decZpx, .unimpl, .f1 .cld,
   .f3 .cmpAby, .unimpl, .unimpl, .unimpl, .f3 .cmpAbx, .f3 .decAbx, .unimpl]

/-- Row Ex of the matrix R76. -/
def opcodeRowE : List Entry :=
  [.f2 .cpxImm, .f2 .sbcIzx, .unimpl, .unimpl, .f2 .cpxZp, .f2 .sbcZp, .f2 .incZp, .unimpl, .f1 .inx,
   .f2 .sbcImm, .f1 .nop, .unimpl, .f3 .cpxAbs, .f3 .sbcAbs, .f3 .incAbs, .unimpl]

/-- Row Fx of the matrix R76. -/
def opcodeRowF : List Entry :=
  [.f2 .beq, .f2 .sbcIzy, .unimpl, .unimpl, .unimpl, .f2 .sbcZpx, .f2 .incZpx, .unimpl, .f1 .sed,
   .f3 .sbcAby, .unimpl, .unimpl, .unimpl, .f3 .sbcAbx, .f3 .incAbx, .unimpl]

/-- The 256-entry table, indexed by the opcode byte (R73). -/
def opcodeTable : List Entry :=
  opcodeRow0 ++ opcodeRow1 ++ opcodeRow2 ++ opcodeRow3 ++ opcodeRow4 ++ opcodeRow5 ++ opcodeRow6 ++ opcodeRow7 ++
  opcodeRow8 ++ opcodeRow9 ++ opcodeRowA ++ opcodeRowB ++ opcodeRowC ++ opcodeRowD ++ opcodeRowE ++ opcodeRowF

/-- The table lookup (R92): total, and it reads nothing but the opcode byte. -/
def entryOf (opcode : Byte) : Entry := opcodeTable.getD opcode.toNat .unimpl

/-- Why the list decoder refuses: the list ends before the instruction does. -/
inductive DecodeError where
  | noOpcode
  | missingOperand (opcode : Byte)
  deriving DecidableEq, Repr

/-- The list decoder: the instruction at the head of a list of bytes, and the bytes after it (R70, R72).  `lo` precedes `hi`
(20_memory R52).  An unimplemented byte is one byte long and takes no operand (R77). -/
def decode : List Byte → Except DecodeError (Instr × List Byte)
  | [] => .error .noOpcode
  | opcode :: rest =>
    match entryOf opcode, rest with
    | .f1 i, _ => .ok (i, rest)
    | .f2 make, d8 :: rest' => .ok (make d8, rest')
    | .f3 make, lo :: hi :: rest' => .ok (make (joinBytes hi lo), rest')
    | .unimpl, _ => .ok (.unimpl opcode, rest)
    | _, _ => .error (.missingOperand opcode)

/-- The bytes of an instruction, in memory order (R70), with the opcode bytes of the list by mnemonic under R76. -/
def encode : Instr → List Byte
  | .ldaImm d8 => [0xA9, d8]
  | .ldaZp d8 => [0xA5, d8]
  | .ldaZpx d8 => [0xB5, d8]
  | .ldaAbs addr => [0xAD, lowByte addr, highByte addr]
  | .ldaAbx addr => [0xBD, lowByte addr, highByte addr]
  | .ldaAby addr => [0xB9, lowByte addr, highByte addr]
  | .ldaIzx d8 => [0xA1, d8]
  | .ldaIzy d8 => [0xB1, d8]
  | .ldxImm d8 => [0xA2, d8]
  | .ldxZp d8 => [0xA6, d8]
  | .ldxZpy d8 => [0xB6, d8]
  | .ldxAbs addr => [0xAE, lowByte addr, highByte addr]
  | .ldxAby addr => [0xBE, lowByte addr, highByte addr]
  | .ldyImm d8 => [0xA0, d8]
  | .ldyZp d8 => [0xA4, d8]
  | .ldyZpx d8 => [0xB4, d8]
  | .ldyAbs addr => [0xAC, lowByte addr, highByte addr]
  | .ldyAbx addr => [0xBC, lowByte addr, highByte addr]
  | .staZp d8 => [0x85, d8]
  | .staZpx d8 => [0x95, d8]
  | .staAbs addr => [0x8D, lowByte addr, highByte addr]
  | .staAbx addr => [0x9D, lowByte addr, highByte addr]
  | .staAby addr => [0x99, lowByte addr, highByte addr]
  | .staIzx d8 => [0x81, d8]
  | .staIzy d8 => [0x91, d8]
  | .stxZp d8 => [0x86, d8]
  | .stxZpy d8 => [0x96, d8]
  | .stxAbs addr => [0x8E, lowByte addr, highByte addr]
  | .styZp d8 => [0x84, d8]
  | .styZpx d8 => [0x94, d8]
  | .styAbs addr => [0x8C, lowByte addr, highByte addr]
  | .tax => [0xAA]
  | .tay => [0xA8]
  | .txa => [0x8A]
  | .tya => [0x98]
  | .tsx => [0xBA]
  | .txs => [0x9A]
  | .inx => [0xE8]
  | .iny => [0xC8]
  | .dex => [0xCA]
  | .dey => [0x88]
  | .incZp d8 => [0xE6, d8]
  | .incZpx d8 => [0xF6, d8]
  | .incAbs addr => [0xEE, lowByte addr, highByte addr]
  | .incAbx addr => [0xFE, lowByte addr, highByte addr]
  | .decZp d8 => [0xC6, d8]
  | .decZpx d8 => [0xD6, d8]
  | .decAbs addr => [0xCE, lowByte addr, highByte addr]
  | .decAbx addr => [0xDE, lowByte addr, highByte addr]
  | .cmpImm d8 => [0xC9, d8]
  | .cmpZp d8 => [0xC5, d8]
  | .cmpZpx d8 => [0xD5, d8]
  | .cmpAbs addr => [0xCD, lowByte addr, highByte addr]
  | .cmpAbx addr => [0xDD, lowByte addr, highByte addr]
  | .cmpAby addr => [0xD9, lowByte addr, highByte addr]
  | .cmpIzx d8 => [0xC1, d8]
  | .cmpIzy d8 => [0xD1, d8]
  | .cpxImm d8 => [0xE0, d8]
  | .cpxZp d8 => [0xE4, d8]
  | .cpxAbs addr => [0xEC, lowByte addr, highByte addr]
  | .cpyImm d8 => [0xC0, d8]
  | .cpyZp d8 => [0xC4, d8]
  | .cpyAbs addr => [0xCC, lowByte addr, highByte addr]
  | .bpl d8 => [0x10, d8]
  | .bmi d8 => [0x30, d8]
  | .bvc d8 => [0x50, d8]
  | .bvs d8 => [0x70, d8]
  | .bcc d8 => [0x90, d8]
  | .bcs d8 => [0xB0, d8]
  | .bne d8 => [0xD0, d8]
  | .beq d8 => [0xF0, d8]
  | .jmpAbs addr => [0x4C, lowByte addr, highByte addr]
  | .jmpInd addr => [0x6C, lowByte addr, highByte addr]
  | .jsr addr => [0x20, lowByte addr, highByte addr]
  | .rts => [0x60]
  | .clc => [0x18]
  | .sec => [0x38]
  | .cli => [0x58]
  | .sei => [0x78]
  | .clv => [0xB8]
  | .cld => [0xD8]
  | .sed => [0xF8]
  | .adcImm d8 => [0x69, d8]
  | .adcZp d8 => [0x65, d8]
  | .adcZpx d8 => [0x75, d8]
  | .adcAbs addr => [0x6D, lowByte addr, highByte addr]
  | .adcAbx addr => [0x7D, lowByte addr, highByte addr]
  | .adcAby addr => [0x79, lowByte addr, highByte addr]
  | .adcIzx d8 => [0x61, d8]
  | .adcIzy d8 => [0x71, d8]
  | .sbcImm d8 => [0xE9, d8]
  | .sbcZp d8 => [0xE5, d8]
  | .sbcZpx d8 => [0xF5, d8]
  | .sbcAbs addr => [0xED, lowByte addr, highByte addr]
  | .sbcAbx addr => [0xFD, lowByte addr, highByte addr]
  | .sbcAby addr => [0xF9, lowByte addr, highByte addr]
  | .sbcIzx d8 => [0xE1, d8]
  | .sbcIzy d8 => [0xF1, d8]
  | .andImm d8 => [0x29, d8]
  | .andZp d8 => [0x25, d8]
  | .andZpx d8 => [0x35, d8]
  | .andAbs addr => [0x2D, lowByte addr, highByte addr]
  | .andAbx addr => [0x3D, lowByte addr, highByte addr]
  | .andAby addr => [0x39, lowByte addr, highByte addr]
  | .andIzx d8 => [0x21, d8]
  | .andIzy d8 => [0x31, d8]
  | .oraImm d8 => [0x09, d8]
  | .oraZp d8 => [0x05, d8]
  | .oraZpx d8 => [0x15, d8]
  | .oraAbs addr => [0x0D, lowByte addr, highByte addr]
  | .oraAbx addr => [0x1D, lowByte addr, highByte addr]
  | .oraAby addr => [0x19, lowByte addr, highByte addr]
  | .oraIzx d8 => [0x01, d8]
  | .oraIzy d8 => [0x11, d8]
  | .eorImm d8 => [0x49, d8]
  | .eorZp d8 => [0x45, d8]
  | .eorZpx d8 => [0x55, d8]
  | .eorAbs addr => [0x4D, lowByte addr, highByte addr]
  | .eorAbx addr => [0x5D, lowByte addr, highByte addr]
  | .eorAby addr => [0x59, lowByte addr, highByte addr]
  | .eorIzx d8 => [0x41, d8]
  | .eorIzy d8 => [0x51, d8]
  | .bitZp d8 => [0x24, d8]
  | .bitAbs addr => [0x2C, lowByte addr, highByte addr]
  | .aslAcc => [0x0A]
  | .aslZp d8 => [0x06, d8]
  | .aslZpx d8 => [0x16, d8]
  | .aslAbs addr => [0x0E, lowByte addr, highByte addr]
  | .aslAbx addr => [0x1E, lowByte addr, highByte addr]
  | .lsrAcc => [0x4A]
  | .lsrZp d8 => [0x46, d8]
  | .lsrZpx d8 => [0x56, d8]
  | .lsrAbs addr => [0x4E, lowByte addr, highByte addr]
  | .lsrAbx addr => [0x5E, lowByte addr, highByte addr]
  | .rolAcc => [0x2A]
  | .rolZp d8 => [0x26, d8]
  | .rolZpx d8 => [0x36, d8]
  | .rolAbs addr => [0x2E, lowByte addr, highByte addr]
  | .rolAbx addr => [0x3E, lowByte addr, highByte addr]
  | .rorAcc => [0x6A]
  | .rorZp d8 => [0x66, d8]
  | .rorZpx d8 => [0x76, d8]
  | .rorAbs addr => [0x6E, lowByte addr, highByte addr]
  | .rorAbx addr => [0x7E, lowByte addr, highByte addr]
  | .pha => [0x48]
  | .pla => [0x68]
  | .php => [0x08]
  | .plp => [0x28]
  | .brk => [0x00]
  | .rti => [0x40]
  | .nop => [0xEA]
  | .unimpl opcode => [opcode]

/-- The three bytes a table word stands for: bits 7:0 first, the bits at and above `nbits` zero. -/
def tableWordBytes (nbits w : Nat) : List Byte :=
  let v := w % 2 ^ nbits
  [BitVec.ofNat 8 v, BitVec.ofNat 8 (v / 256), BitVec.ofNat 8 (v / 65536)]

/-- The instruction the decoder reads from a word numbered as spec/opcode_table.json numbers its bits. -/
def decodeTableWord (nbits w : Nat) : Option Instr :=
  match decode (tableWordBytes nbits w) with
  | .ok (i, _) => some i
  | .error _ => none

end Sys2Proof
end

