-- ==== Sys2Proof/Machine/Memory.lean ====
section
/-! DEFINITION. Plain memory of 65,536 bytes (10_state R38; 20_memory R50), as a list of (address, byte) pairs in one canonical
form.  Which bus addresses reach it is the bus's map. -/

namespace Sys2Proof.Machine

/-- Memory as data; an address that is not listed reads as `Config.unlistedByte`. -/
abbrev Memory := List Host.Cell

/-- The canonical form: addresses strictly rising and inside the address space, no cell equal to what an unlisted address
reads as. -/
abbrev Memory.wf (m : Memory) : Prop :=
  m.Pairwise (fun c d => c.1 < d.1) ∧ ∀ c ∈ m, c.1 < 65536 ∧ c.2 ≠ Config.unlistedByte

/-- The byte listed for an address, or what an unlisted address reads as. -/
def Memory.find : Memory → Nat → Byte
  | [], _ => Config.unlistedByte
  | c :: m, a => if c.1 = a then c.2 else Memory.find m a

/-- Puts a cell before the first cell of a higher address. -/
def Memory.insert : Memory → Host.Cell → Memory
  | [], c => [c]
  | d :: m, c => if c.1 < d.1 then c :: d :: m else d :: Memory.insert m c

/-- The byte most recently written to a cell (R62). -/
def Memory.read (m : Memory) (a : Word) : Byte := m.find a.toNat

/-- Afterwards the cell reads `v`, every other cell reads as before. -/
def Memory.write (m : Memory) (a : Word) (v : Byte) : Memory :=
  let others := m.filter (fun c => c.1 ≠ a.toNat)
  if v = Config.unlistedByte then others else Memory.insert others (a.toNat, v)

end Sys2Proof.Machine
end

