-- ==== Sys2Proof/Machine/Bus.lean ====
section
/-! DEFINITION. The Memory Bus, the open parameter of the model (00_scope R9; 20_memory R50, R51, R61, R67, R68; 92 D16): a state
with `read` and `write`, each total, each answering the state after it.
The state is plain data: a platform's map (log 12), the memory cells, and the state of the devices.  What a device does is
uninterpreted (`Config.deviceRead`, `Config.deviceWrite`), so a bus whose map sends every address to the devices is the
arbitrary bus of D16, and the bus with no window is its reference instance, flat RAM. -/

namespace Sys2Proof.Machine

/-- What answers at an address: the platform's choice (R61). -/
inductive PlaceKind where
  /-- Reads and writes reach a memory cell. -/
  | ram
  /-- Reads reach a memory cell, a write has no effect. -/
  | rom
  /-- Reads reach a memory cell, a write goes to the devices: a register behind a ROM. -/
  | romPort
  /-- Reads and writes go to the devices. -/
  | device
  deriving DecidableEq, Repr

/-- What an address reaches.  Two addresses with one cell are mirrors of each other. -/
structure Place where
  kind : PlaceKind
  cell : Word
  deriving DecidableEq, Repr

/-- A range of `size` addresses from `base` on, wrapping at 0xFFFF, and what it reaches: the cells from `target` on, starting over
after `period` cells (never, for a period of 0). -/
structure Window where
  base : Word
  size : Nat
  kind : PlaceKind
  target : Word
  period : Nat
  deriving DecidableEq, Repr

/-- The bus's state (92 D16). -/
structure Bus where
  /-- the platform's windows (R61), the first that holds an address deciding; an access never changes them -/
  map : List Window
  /-- the memory cells -/
  mem : Memory
  /-- the state of the devices (log 12) -/
  devices : Nat
  deriving DecidableEq, Repr

/-- Whether a window holds an address. -/
def Window.holds (w : Window) (a : Word) : Bool := (a - w.base).toNat < w.size

/-- The cell an address of a window reaches. -/
def Window.cellOf (w : Window) (a : Word) : Word := w.target + BitVec.ofNat 16 ((a - w.base).toNat % w.period)

/-- What an address reaches; outside every window, plain RAM at the address itself. -/
def Bus.place (b : Bus) (a : Word) : Place :=
  match b.map.find? (fun w => w.holds a) with
  | some w => { kind := w.kind, cell := w.cellOf a }
  | none => { kind := .ram, cell := a }

/-- `read` (R50, R51): a byte, and the bus after it.  Only a device's state can change (R67). -/
def Bus.read (b : Bus) (a : Word) : Byte × Bus :=
  match (b.place a).kind with
  | .ram | .rom | .romPort => (b.mem.read (b.place a).cell, b)
  | .device =>
    let r := Config.deviceRead b.devices a
    (r.1, { b with devices := r.2 })

/-- `write` (R50, R51). -/
def Bus.write (b : Bus) (a : Word) (v : Byte) : Bus :=
  match (b.place a).kind with
  | .ram => { b with mem := b.mem.write (b.place a).cell v }
  | .rom => b
  | .romPort | .device => { b with devices := Config.deviceWrite b.devices a v }

/-- The byte a read would return, without the read. -/
def Bus.peek (b : Bus) (a : Word) : Byte := (b.read a).1

/-- The bus at power-on: no window, so flat RAM, D16's reference instance (DESIGN CHOICE, log 1), with nothing listed (log 2).
The devices, which nothing then reaches, stand at 0 (log 12). -/
def Bus.flat : Bus := { map := [], mem := [], devices := 0 }

/-- A bus on which three addresses from `a` on are plain RAM: the same bus where they are already, else with one more window
(log 10). -/
def Bus.withRamAt (b : Bus) (a : Word) : Bus :=
  if [a, a + 1, a + 2].all (fun c => b.place c == { kind := .ram, cell := c }) then b
  else { b with map := { base := a, size := 3, kind := .ram, target := a, period := 0 } :: b.map }

end Sys2Proof.Machine
end

