-- ==== Sys2Proof/Machine/State.lean ====
section
/-! DEFINITION. The state of the machine as plain data, the reasons a step can stop, and the state after reset
(10_state R20 to R41; 70_reset_and_hazards R260). -/

namespace Sys2Proof.Machine

/-- The processor status P: seven independent flags (R28).  Bit 5 of the packed byte has no state behind it (R29). -/
structure Status where
  /-- negative -/
  n : Bool
  /-- overflow -/
  v : Bool
  /-- break -/
  b : Bool
  /-- decimal -/
  d : Bool
  /-- interrupt-disable -/
  i : Bool
  /-- zero -/
  z : Bool
  /-- carry -/
  c : Bool
  deriving DecidableEq, Repr

/-- One access of the bus: always one byte (20_memory R53). -/
inductive BusAccess where
  | read (addr : Word) (value : Byte)
  | write (addr : Word) (value : Byte)
  deriving DecidableEq, Repr

/-- What the last step gave the world outside the core (log 5): the base cycle count it returned (R90, R108) and the accesses it
made on the bus, in order (R54).  No register: no meaning reads it. -/
structure StepOutput where
  cycles : Option Nat
  accesses : List BusAccess
  deriving DecidableEq, Repr

/-- The Register File (R20 to R28), the bus lent to the step (R38, R50), and the last step's output (log 5). -/
structure State where
  /-- accumulator (R20) -/
  a : Byte
  /-- index register (R21) -/
  x : Byte
  /-- index register (R22) -/
  y : Byte
  /-- the stack pointer S (R23) -/
  sp : Byte
  /-- program counter (R25) -/
  pc : Word
  /-- status (R28) -/
  p : Status
  /-- the Memory Bus, the model's open parameter (R9, R50) -/
  bus : Bus
  out : StepOutput
  deriving DecidableEq, Repr

/-- Why the machine stops; a closed enumeration of the one fault the spec has (60_exceptions R230, R234). -/
inductive Fault where
  /-- Raised by `execUnimpl` and by nothing else (R217, R230): the opcode byte and the address it was fetched from.  Terminal
  (R231), and what the hardware specified does: safe. -/
  | unimplementedOpcode (opcode : Byte) (pc : Word)
  deriving DecidableEq, Repr

/-- Why the model has no meaning for an instruction. -/
inductive Refusal where
  /-- Raised by `exec` for an instruction without a meaning yet; no arm raises it.  Safe. -/
  | notModelled (mnemonic : String)
  deriving DecidableEq, Repr

/-- What one instruction or one step answers. -/
abbrev Result := Host.Outcome State Fault Refusal

/-- A draw of what reset leaves unspecified (R40, R260, parameter ResetUndef). -/
structure ResetDraw where
  a : Byte
  x : Byte
  y : Byte
  n : Bool
  v : Bool
  d : Bool
  z : Bool
  c : Bool
  deriving DecidableEq, Repr

/-- The draw of zeros.  DESIGN CHOICE (log 3), unsafe: the spec gives none of these values. -/
def ResetDraw.zero : ResetDraw :=
  { a := 0, x := 0, y := 0, n := false, v := false, d := false, z := false, c := false }

/-- The state right after reset over a bus, for a draw of the unspecified registers (R40, R260).  Reset reads the two bytes of
the vector, low byte first, writes nothing, and returns no cycle count. -/
def State.afterReset (draw : ResetDraw) (b : Bus) : State :=
  let lo := b.read Config.resetVector
  let hi := lo.2.read (Config.resetVector + 1)
  { a := draw.a, x := draw.x, y := draw.y, sp := Config.resetS, pc := joinBytes hi.1 lo.1,
    p := { n := draw.n, v := draw.v, b := true, d := draw.d, i := true, z := draw.z, c := draw.c },
    bus := hi.2,
    out := { cycles := none,
             accesses := [.read Config.resetVector lo.1, .read (Config.resetVector + 1) hi.1] } }

/-- The state right after reset: the reference bus (log 1), the unspecified registers drawn as zero (log 3). -/
def State.reset : State := State.afterReset ResetDraw.zero Bus.flat

end Sys2Proof.Machine
end

