-- ==== Sys2Proof/Machine/Flags.lean ====
section
/-! DEFINITION. Every flag computation of the spec: SetNZ, pack, unpack (10_state R31 to R33), Compare (44_compare R149),
AddCore (48_alu_shift R190), the bit test (R196) and the four shift functions (R198 to R201). -/

namespace Sys2Proof.Machine

/-- A flag as a byte with that flag at bit `k` and zeros elsewhere. -/
def bitAt (flag : Bool) (k : Nat) : Byte := if flag then 1#8 <<< k else 0#8

/-- `SetNZ(v)` (R31). -/
def Status.setNZ (p : Status) (v : Byte) : Status := { p with n := v.getLsbD 7, z := v == 0 }

/-- `pack(P)` (R32): bit 5 reads as 1. -/
def Status.pack (p : Status) : Byte :=
  bitAt p.n 7 ||| bitAt p.v 6 ||| bitAt true 5 ||| bitAt p.b 4 ||| bitAt p.d 3 ||| bitAt p.i 2 ||| bitAt p.z 1 |||
    bitAt p.c 0

/-- `unpack(b)` (R33): six flags; bits 5 and 4 are ignored and P.B is left unchanged (92 D10). -/
def Status.unpack (p : Status) (b : Byte) : Status :=
  { p with n := b.getLsbD 7, v := b.getLsbD 6, d := b.getLsbD 3, i := b.getLsbD 2, z := b.getLsbD 1,
           c := b.getLsbD 0 }

/-- `Compare(r, v)` (R149): unsigned comparison, N from bit 7 of the wrapped difference. -/
def Status.compare (p : Status) (r v : Byte) : Status :=
  { p with c := decide (v.toNat ≤ r.toNat), z := r == v, n := (r - v).getLsbD 7 }

/-- `AddCore(m)` (R190) on the old A: the new A and the new flags.  Binary whatever P.D is (92 D8). -/
def Status.addCore (p : Status) (a m : Byte) : Byte × Status :=
  let t := a.toNat + m.toNat + p.c.toNat
  let r := BitVec.ofNat 8 t
  (r, { p with c := t.testBit 8, v := (a.getLsbD 7 == m.getLsbD 7) && (r.getLsbD 7 != a.getLsbD 7) }.setNZ r)

/-- The flags of BIT (R196): Z from the and, N and V from the memory byte itself. -/
def Status.bitTest (p : Status) (a v : Byte) : Status :=
  { p with z := (a &&& v) == 0, n := v.getLsbD 7, v := v.getLsbD 6 }

/-- The function of ASL (R198): (result, new carry) from (byte, old carry). -/
def shiftAsl (v : Byte) (_ : Bool) : Byte × Bool := (v <<< 1, v.getLsbD 7)

/-- The function of LSR (R199). -/
def shiftLsr (v : Byte) (_ : Bool) : Byte × Bool := (v >>> 1, v.getLsbD 0)

/-- The function of ROL (R200): the old carry enters bit 0. -/
def shiftRol (v : Byte) (c : Bool) : Byte × Bool := ((v <<< 1) ||| bitAt c 0, v.getLsbD 7)

/-- The function of ROR (R201): the old carry enters bit 7. -/
def shiftRor (v : Byte) (c : Bool) : Byte × Bool := ((v >>> 1) ||| bitAt c 7, v.getLsbD 0)

end Sys2Proof.Machine
end

