-- ==== Sys2Proof/Machine/Ops.lean ====
section
/-! DEFINITION. The named operations over bus, program counter and stack (20_memory R51 to R58; 40_execution R91), and taking the
machine's one trap and returning from it (49_stack_system R214, R215; 60_exceptions R238, R239).
An operation that reads the bus answers the value and the state after it, since a read is an access the bus
sees (R54) and may change the bus (R50). -/

namespace Sys2Proof.Machine

/-- Puts one more access at the end of the step's list (R54). -/
def State.logged (s : State) (access : BusAccess) : State :=
  { s with out := { s.out with accesses := s.out.accesses ++ [access] } }

/-- `MemRead(addr, 1)` (00_scope R12; 20_memory R51). -/
def State.memRead (s : State) (addr : Word) : Byte × State :=
  let r := s.bus.read addr
  (r.1, { s with bus := r.2 }.logged (.read addr r.1))

/-- `MemWrite(addr, 1, v)` (00_scope R12; 20_memory R51). -/
def State.memWrite (s : State) (addr : Word) (v : Byte) : State :=
  { s with bus := s.bus.write addr v }.logged (.write addr v)

/-- `Read16(addr)` (R12, R52): the low byte first, the second address wrapping in 16 bits. -/
def State.read16 (s : State) (addr : Word) : Word × State :=
  let lo := s.memRead addr
  let hi := lo.2.memRead (addr + 1)
  (joinBytes hi.1 lo.1, hi.2)

/-- `Fetch()` (R91): one read at PC, then PC plus 1. -/
def State.fetch (s : State) : Byte × State :=
  let b := s.memRead s.pc
  (b.1, { b.2 with pc := s.pc + 1 })

/-- The stack location `{0x01, S}` (10_state R23). -/
def stackAddr (sp : Byte) : Word := joinBytes 0x01 sp

/-- `Push(v)` (R56): writes at the old S, then decrements S. -/
def State.push (s : State) (v : Byte) : State := { s.memWrite (stackAddr s.sp) v with sp := s.sp - 1 }

/-- `Pull()` (R57): increments S, then reads at the new S. -/
def State.pull (s : State) : Byte × State := { s with sp := s.sp + 1 }.memRead (stackAddr (s.sp + 1))

/-- Pushes a word, high byte first (R171, R214). -/
def State.pushWord (s : State) (w : Word) : State := (s.push (highByte w)).push (lowByte w)

/-- Pulls a word, low byte first (R172, R215). -/
def State.pullWord (s : State) : Word × State :=
  let lo := s.pull
  let hi := lo.2.pull
  (joinBytes hi.1 lo.1, hi.2)

/-- Taking a trap (R214, R238): the return address and a status byte go on the stack, then P.I is set, then PC is loaded from a
vector.  BRK is the only trap of the core; the host's emulated interrupts share the sequence (R236). -/
def State.takeTrap (s : State) (ret : Word) (status : Byte) (vector : Word) : State :=
  let s1 := (s.pushWord ret).push status
  let v := { s1 with p := { s1.p with i := true } }.read16 vector
  { v.2 with pc := v.1 }

/-- Returning from a trap (R215, R239): the status byte, then PC, with nothing added to it. -/
def State.returnFromTrap (s : State) : State :=
  let b := s.pull
  let w := { b.2 with p := b.2.p.unpack b.1 }.pullWord
  { w.2 with pc := w.1 }

end Sys2Proof.Machine
end

