-- ==== Sys2Proof/Machine/Operands.lean ====
section
/-! DEFINITION. The addressing-mode resolver (40_execution_and_addressing R93 to R105) and the operand value (R106).
The operand bytes have been fetched and PC points past them when these run; what is left of each mode is its index sum and its
pointer reads.  `imp` has no operand (R94), so nothing here stands for it. -/

namespace Sys2Proof.Machine

/-- The modes whose operand is an effective address that an instruction reads or writes through. -/
inductive MemMode where
  | zp (d8 : Byte)
  | zpx (d8 : Byte)
  | zpy (d8 : Byte)
  | abs (addr : Word)
  | abx (addr : Word)
  | aby (addr : Word)
  | izx (d8 : Byte)
  | izy (d8 : Byte)
  deriving DecidableEq, Repr

/-- The operand of an instruction that takes a source byte: a value, or an address to read (R106). -/
inductive Source where
  | imm (d8 : Byte)
  | mem (m : MemMode)
  deriving DecidableEq, Repr

/-- The operand of a shift or rotate: the accumulator, or the byte at an effective address (R197). -/
inductive Target where
  | acc
  | mem (m : MemMode)
  deriving DecidableEq, Repr

/-- The word a zero-page pointer holds; the pointer's second byte wraps inside the zero page (R104, R105). -/
def State.readZpPointer (s : State) (z : Byte) : Word × State :=
  let lo := s.memRead (zext16 z)
  let hi := lo.2.memRead (zext16 (z + 1))
  (joinBytes hi.1 lo.1, hi.2)

/-- The effective address of a mode, and the state after its pointer reads (R96 to R98, R100 to R102, R104, R105). -/
def MemMode.resolve (m : MemMode) (s : State) : Word × State :=
  match m with
  | .zp d8 => (zext16 d8, s)
  | .zpx d8 => (zext16 (d8 + s.x), s)
  | .zpy d8 => (zext16 (d8 + s.y), s)
  | .abs addr => (addr, s)
  | .abx addr => (addr + zext16 s.x, s)
  | .aby addr => (addr + zext16 s.y, s)
  | .izx d8 => s.readZpPointer (d8 + s.x)
  | .izy d8 =>
    let ptr := s.readZpPointer d8
    (ptr.1 + zext16 s.y, ptr.2)

/-- Mode `rel` (R99): the target counts from the following instruction, the offset is signed. -/
def branchTarget (d8 : Byte) (s : State) : Word := s.pc + sext16 d8

/-- Mode `ind` (R103): the pointer's second byte comes from the same page. -/
def State.resolveInd (s : State) (ptr : Word) : Word × State :=
  let lo := s.memRead ptr
  let next := if Config.jmpIndPageWrap then joinBytes (highByte ptr) (lowByte ptr + 1) else ptr + 1
  let hi := lo.2.memRead next
  (joinBytes hi.1 lo.1, hi.2)

/-- `Val()` of a source (R106): an immediate is the value itself, no access; any other mode is one read of the effective
address. -/
def Source.value (o : Source) (s : State) : Byte × State :=
  match o with
  | .imm d8 => (d8, s)
  | .mem m =>
    let r := m.resolve s
    r.2.memRead r.1

/-- One read of the effective address, a function of the byte, one write back (R54, R64).  `f` gives the byte written and the
new status. -/
def State.modify (s : State) (m : MemMode) (f : Byte → Status → Byte × Status) : State :=
  let r := m.resolve s
  let b := r.2.memRead r.1
  let out := f b.1 b.2.p
  { b.2.memWrite r.1 out.1 with p := out.2 }

end Sys2Proof.Machine
end

