-- ==== Sys2Proof/Machine/Alu.lean ====
section
/-! DEFINITION. The meanings of arithmetic, logic and bit test (48_alu_shift R190 to R196). -/

namespace Sys2Proof.Machine

/-- `AddCore(m)` (R190) on the state after the operand has been read. -/
def addToA (m : Byte) (s : State) : State :=
  let r := s.p.addCore s.a m
  { s with a := r.1, p := r.2 }

/-- `v <- Val(); AddCore(v)` (R191). -/
def addWithCarry (o : Source) (s : State) : State :=
  let v := o.value s
  addToA v.1 v.2

/-- `v <- Val(); AddCore(v ^ 0xFF)` (R192): the carry is an inverted borrow. -/
def subtractWithBorrow (o : Source) (s : State) : State :=
  let v := o.value s
  addToA (v.1 ^^^ 0xFF) v.2

/-- `v <- Val(); A <- f(A, v); SetNZ(A)` (R193 to R195). -/
def logicA (f : Byte → Byte → Byte) (o : Source) (s : State) : State :=
  let v := o.value s
  let r := f v.2.a v.1
  { v.2 with a := r, p := v.2.p.setNZ r }

/-- `v <- Val()`, then the three flags of BIT (R196); no register is written. -/
def testBits (m : MemMode) (s : State) : State :=
  let v := (Source.mem m).value s
  { v.2 with p := v.2.p.bitTest v.2.a v.1 }

/-- ADC, mode `imm` (R191). -/
def execAdcImm (d8 : Byte) (s : State) : Result := .next (addWithCarry (.imm d8) s)

/-- ADC, mode `zp` (R191). -/
def execAdcZp (d8 : Byte) (s : State) : Result := .next (addWithCarry (.mem (.zp d8)) s)

/-- ADC, mode `zpx` (R191). -/
def execAdcZpx (d8 : Byte) (s : State) : Result := .next (addWithCarry (.mem (.zpx d8)) s)

/-- ADC, mode `abs` (R191). -/
def execAdcAbs (addr : Word) (s : State) : Result := .next (addWithCarry (.mem (.abs addr)) s)

/-- ADC, mode `abx` (R191). -/
def execAdcAbx (addr : Word) (s : State) : Result := .next (addWithCarry (.mem (.abx addr)) s)

/-- ADC, mode `aby` (R191). -/
def execAdcAby (addr : Word) (s : State) : Result := .next (addWithCarry (.mem (.aby addr)) s)

/-- ADC, mode `izx` (R191). -/
def execAdcIzx (d8 : Byte) (s : State) : Result := .next (addWithCarry (.mem (.izx d8)) s)

/-- ADC, mode `izy` (R191). -/
def execAdcIzy (d8 : Byte) (s : State) : Result := .next (addWithCarry (.mem (.izy d8)) s)

/-- SBC, mode `imm` (R192). -/
def execSbcImm (d8 : Byte) (s : State) : Result := .next (subtractWithBorrow (.imm d8) s)

/-- SBC, mode `zp` (R192). -/
def execSbcZp (d8 : Byte) (s : State) : Result := .next (subtractWithBorrow (.mem (.zp d8)) s)

/-- SBC, mode `zpx` (R192). -/
def execSbcZpx (d8 : Byte) (s : State) : Result := .next (subtractWithBorrow (.mem (.zpx d8)) s)

/-- SBC, mode `abs` (R192). -/
def execSbcAbs (addr : Word) (s : State) : Result := .next (subtractWithBorrow (.mem (.abs addr)) s)

/-- SBC, mode `abx` (R192). -/
def execSbcAbx (addr : Word) (s : State) : Result := .next (subtractWithBorrow (.mem (.abx addr)) s)

/-- SBC, mode `aby` (R192). -/
def execSbcAby (addr : Word) (s : State) : Result := .next (subtractWithBorrow (.mem (.aby addr)) s)

/-- SBC, mode `izx` (R192). -/
def execSbcIzx (d8 : Byte) (s : State) : Result := .next (subtractWithBorrow (.mem (.izx d8)) s)

/-- SBC, mode `izy` (R192). -/
def execSbcIzy (d8 : Byte) (s : State) : Result := .next (subtractWithBorrow (.mem (.izy d8)) s)

/-- AND, mode `imm` (R193). -/
def execAndImm (d8 : Byte) (s : State) : Result := .next (logicA (· &&& ·) (.imm d8) s)

/-- AND, mode `zp` (R193). -/
def execAndZp (d8 : Byte) (s : State) : Result := .next (logicA (· &&& ·) (.mem (.zp d8)) s)

/-- AND, mode `zpx` (R193). -/
def execAndZpx (d8 : Byte) (s : State) : Result := .next (logicA (· &&& ·) (.mem (.zpx d8)) s)

/-- AND, mode `abs` (R193). -/
def execAndAbs (addr : Word) (s : State) : Result := .next (logicA (· &&& ·) (.mem (.abs addr)) s)

/-- AND, mode `abx` (R193). -/
def execAndAbx (addr : Word) (s : State) : Result := .next (logicA (· &&& ·) (.mem (.abx addr)) s)

/-- AND, mode `aby` (R193). -/
def execAndAby (addr : Word) (s : State) : Result := .next (logicA (· &&& ·) (.mem (.aby addr)) s)

/-- AND, mode `izx` (R193). -/
def execAndIzx (d8 : Byte) (s : State) : Result := .next (logicA (· &&& ·) (.mem (.izx d8)) s)

/-- AND, mode `izy` (R193). -/
def execAndIzy (d8 : Byte) (s : State) : Result := .next (logicA (· &&& ·) (.mem (.izy d8)) s)

/-- ORA, mode `imm` (R194). -/
def execOraImm (d8 : Byte) (s : State) : Result := .next (logicA (· ||| ·) (.imm d8) s)

/-- ORA, mode `zp` (R194). -/
def execOraZp (d8 : Byte) (s : State) : Result := .next (logicA (· ||| ·) (.mem (.zp d8)) s)

/-- ORA, mode `zpx` (R194). -/
def execOraZpx (d8 : Byte) (s : State) : Result := .next (logicA (· ||| ·) (.mem (.zpx d8)) s)

/-- ORA, mode `abs` (R194). -/
def execOraAbs (addr : Word) (s : State) : Result := .next (logicA (· ||| ·) (.mem (.abs addr)) s)

/-- ORA, mode `abx` (R194). -/
def execOraAbx (addr : Word) (s : State) : Result := .next (logicA (· ||| ·) (.mem (.abx addr)) s)

/-- ORA, mode `aby` (R194). -/
def execOraAby (addr : Word) (s : State) : Result := .next (logicA (· ||| ·) (.mem (.aby addr)) s)

/-- ORA, mode `izx` (R194). -/
def execOraIzx (d8 : Byte) (s : State) : Result := .next (logicA (· ||| ·) (.mem (.izx d8)) s)

/-- ORA, mode `izy` (R194). -/
def execOraIzy (d8 : Byte) (s : State) : Result := .next (logicA (· ||| ·) (.mem (.izy d8)) s)

/-- EOR, mode `imm` (R195). -/
def execEorImm (d8 : Byte) (s : State) : Result := .next (logicA (· ^^^ ·) (.imm d8) s)

/-- EOR, mode `zp` (R195). -/
def execEorZp (d8 : Byte) (s : State) : Result := .next (logicA (· ^^^ ·) (.mem (.zp d8)) s)

/-- EOR, mode `zpx` (R195). -/
def execEorZpx (d8 : Byte) (s : State) : Result := .next (logicA (· ^^^ ·) (.mem (.zpx d8)) s)

/-- EOR, mode `abs` (R195). -/
def execEorAbs (addr : Word) (s : State) : Result := .next (logicA (· ^^^ ·) (.mem (.abs addr)) s)

/-- EOR, mode `abx` (R195). -/
def execEorAbx (addr : Word) (s : State) : Result := .next (logicA (· ^^^ ·) (.mem (.abx addr)) s)

/-- EOR, mode `aby` (R195). -/
def execEorAby (addr : Word) (s : State) : Result := .next (logicA (· ^^^ ·) (.mem (.aby addr)) s)

/-- EOR, mode `izx` (R195). -/
def execEorIzx (d8 : Byte) (s : State) : Result := .next (logicA (· ^^^ ·) (.mem (.izx d8)) s)

/-- EOR, mode `izy` (R195). -/
def execEorIzy (d8 : Byte) (s : State) : Result := .next (logicA (· ^^^ ·) (.mem (.izy d8)) s)

/-- BIT, mode `zp` (R196). -/
def execBitZp (d8 : Byte) (s : State) : Result := .next (testBits (.zp d8) s)

/-- BIT, mode `abs` (R196). -/
def execBitAbs (addr : Word) (s : State) : Result := .next (testBits (.abs addr) s)

end Sys2Proof.Machine
end

