-- ==== Sys2Proof/Machine/Branch.lean ====
section
/-! DEFINITION. The meanings of the conditional branches (45_branch R155 to R163). -/

namespace Sys2Proof.Machine

/-- `if <predicate>: PC <- operand` (R155): nothing else changes; a branch not taken leaves PC at the following instruction. -/
def branchIf (taken : Bool) (d8 : Byte) (s : State) : State :=
  if taken then { s with pc := branchTarget d8 s } else s

/-- BPL (R156): taken when P.N is 0. -/
def execBpl (d8 : Byte) (s : State) : Result := .next (branchIf (!s.p.n) d8 s)

/-- BMI (R157): taken when P.N is 1. -/
def execBmi (d8 : Byte) (s : State) : Result := .next (branchIf s.p.n d8 s)

/-- BVC (R158): taken when P.V is 0. -/
def execBvc (d8 : Byte) (s : State) : Result := .next (branchIf (!s.p.v) d8 s)

/-- BVS (R159): taken when P.V is 1. -/
def execBvs (d8 : Byte) (s : State) : Result := .next (branchIf s.p.v d8 s)

/-- BCC (R160): taken when P.C is 0. -/
def execBcc (d8 : Byte) (s : State) : Result := .next (branchIf (!s.p.c) d8 s)

/-- BCS (R161): taken when P.C is 1. -/
def execBcs (d8 : Byte) (s : State) : Result := .next (branchIf s.p.c d8 s)

/-- BNE (R162): taken when P.Z is 0. -/
def execBne (d8 : Byte) (s : State) : Result := .next (branchIf (!s.p.z) d8 s)

/-- BEQ (R163): taken when P.Z is 1. -/
def execBeq (d8 : Byte) (s : State) : Result := .next (branchIf s.p.z d8 s)

end Sys2Proof.Machine
end

