-- ==== Sys2Proof/Machine/Compare.lean ====
section
/-! DEFINITION. The meanings of the compares (44_compare R149 to R152). -/

namespace Sys2Proof.Machine

/-- `v <- Val(); Compare(r, v)` (R149): C, Z and N are written and nothing else. -/
def compareWith (r : Byte) (o : Source) (s : State) : State :=
  let v := o.value s
  { v.2 with p := v.2.p.compare r v.1 }

/-- CMP, mode `imm` (R150). -/
def execCmpImm (d8 : Byte) (s : State) : Result := .next (compareWith s.a (.imm d8) s)

/-- CMP, mode `zp` (R150). -/
def execCmpZp (d8 : Byte) (s : State) : Result := .next (compareWith s.a (.mem (.zp d8)) s)

/-- CMP, mode `zpx` (R150). -/
def execCmpZpx (d8 : Byte) (s : State) : Result := .next (compareWith s.a (.mem (.zpx d8)) s)

/-- CMP, mode `abs` (R150). -/
def execCmpAbs (addr : Word) (s : State) : Result := .next (compareWith s.a (.mem (.abs addr)) s)

/-- CMP, mode `abx` (R150). -/
def execCmpAbx (addr : Word) (s : State) : Result := .next (compareWith s.a (.mem (.abx addr)) s)

/-- CMP, mode `aby` (R150). -/
def execCmpAby (addr : Word) (s : State) : Result := .next (compareWith s.a (.mem (.aby addr)) s)

/-- CMP, mode `izx` (R150). -/
def execCmpIzx (d8 : Byte) (s : State) : Result := .next (compareWith s.a (.mem (.izx d8)) s)

/-- CMP, mode `izy` (R150). -/
def execCmpIzy (d8 : Byte) (s : State) : Result := .next (compareWith s.a (.mem (.izy d8)) s)

/-- CPX, mode `imm` (R151). -/
def execCpxImm (d8 : Byte) (s : State) : Result := .next (compareWith s.x (.imm d8) s)

/-- CPX, mode `zp` (R151). -/
def execCpxZp (d8 : Byte) (s : State) : Result := .next (compareWith s.x (.mem (.zp d8)) s)

/-- CPX, mode `abs` (R151). -/
def execCpxAbs (addr : Word) (s : State) : Result := .next (compareWith s.x (.mem (.abs addr)) s)

/-- CPY, mode `imm` (R152). -/
def execCpyImm (d8 : Byte) (s : State) : Result := .next (compareWith s.y (.imm d8) s)

/-- CPY, mode `zp` (R152). -/
def execCpyZp (d8 : Byte) (s : State) : Result := .next (compareWith s.y (.mem (.zp d8)) s)

/-- CPY, mode `abs` (R152). -/
def execCpyAbs (addr : Word) (s : State) : Result := .next (compareWith s.y (.mem (.abs addr)) s)

end Sys2Proof.Machine
end

