-- ==== Sys2Proof/Machine/FlagSet.lean ====
section
/-! DEFINITION. The meanings of the flag instructions (47_flag_set_clear R179 to R186): one flag is written, nothing else. -/

namespace Sys2Proof.Machine

/-- CLC (R180): `P.C <- 0`. -/
def execClc (s : State) : Result := .next { s with p := { s.p with c := false } }

/-- SEC (R181): `P.C <- 1`. -/
def execSec (s : State) : Result := .next { s with p := { s.p with c := true } }

/-- CLI (R182): `P.I <- 0`. -/
def execCli (s : State) : Result := .next { s with p := { s.p with i := false } }

/-- SEI (R183): `P.I <- 1`. -/
def execSei (s : State) : Result := .next { s with p := { s.p with i := true } }

/-- CLV (R184): `P.V <- 0`. -/
def execClv (s : State) : Result := .next { s with p := { s.p with v := false } }

/-- CLD (R185): `P.D <- 0`. -/
def execCld (s : State) : Result := .next { s with p := { s.p with d := false } }

/-- SED (R186): `P.D <- 1`. -/
def execSed (s : State) : Result := .next { s with p := { s.p with d := true } }

end Sys2Proof.Machine
end

