-- ==== Sys2Proof/Machine/IncDec.lean ====
section
/-! DEFINITION. The meanings of the increments and decrements (43_increment_decrement R139 to R145): N and Z from the result; C and V
keep their values. -/

namespace Sys2Proof.Machine

/-- INX (R140): increment X. -/
def execInx (s : State) : Result :=
  .next { s with x := s.x + 1, p := s.p.setNZ (s.x + 1) }

/-- INY (R141): increment Y. -/
def execIny (s : State) : Result :=
  .next { s with y := s.y + 1, p := s.p.setNZ (s.y + 1) }

/-- DEX (R142): decrement X. -/
def execDex (s : State) : Result :=
  .next { s with x := s.x - 1, p := s.p.setNZ (s.x - 1) }

/-- DEY (R143): decrement Y. -/
def execDey (s : State) : Result :=
  .next { s with y := s.y - 1, p := s.p.setNZ (s.y - 1) }

/-- `v <- MemRead(operand); r <- v +8 d; MemWrite(operand, r); SetNZ(r)` (R144, R145), `d` being 1 or -1. -/
def addToMemory (d : Byte) (m : MemMode) (s : State) : State :=
  s.modify m (fun v p => (v + d, p.setNZ (v + d)))

/-- INC, mode `zp` (R144). -/
def execIncZp (d8 : Byte) (s : State) : Result := .next (addToMemory 1 (.zp d8) s)

/-- INC, mode `zpx` (R144). -/
def execIncZpx (d8 : Byte) (s : State) : Result := .next (addToMemory 1 (.zpx d8) s)

/-- INC, mode `abs` (R144). -/
def execIncAbs (addr : Word) (s : State) : Result := .next (addToMemory 1 (.abs addr) s)

/-- INC, mode `abx` (R144). -/
def execIncAbx (addr : Word) (s : State) : Result := .next (addToMemory 1 (.abx addr) s)

/-- DEC, mode `zp` (R145). -/
def execDecZp (d8 : Byte) (s : State) : Result := .next (addToMemory (-1) (.zp d8) s)

/-- DEC, mode `zpx` (R145). -/
def execDecZpx (d8 : Byte) (s : State) : Result := .next (addToMemory (-1) (.zpx d8) s)

/-- DEC, mode `abs` (R145). -/
def execDecAbs (addr : Word) (s : State) : Result := .next (addToMemory (-1) (.abs addr) s)

/-- DEC, mode `abx` (R145). -/
def execDecAbx (addr : Word) (s : State) : Result := .next (addToMemory (-1) (.abx addr) s)

end Sys2Proof.Machine
end

