-- ==== Sys2Proof/Machine/Jump.lean ====
section
/-! DEFINITION. The meanings of jump, call and return (46_jump_call_return R170 to R172). -/

namespace Sys2Proof.Machine

/-- JMP, mode `abs` (R170): nothing is read at the target. -/
def execJmpAbs (addr : Word) (s : State) : Result := .next { s with pc := addr }

/-- JMP, mode `ind` (R170, R103). -/
def execJmpInd (addr : Word) (s : State) : Result :=
  let t := s.resolveInd addr
  .next { t.2 with pc := t.1 }

/-- JSR (R171): pushes the address of its own last byte, PC being past the operand. -/
def execJsr (addr : Word) (s : State) : Result := .next { s.pushWord (s.pc - 1) with pc := addr }

/-- RTS (R172): adds the 1 back. -/
def execRts (s : State) : Result :=
  let w := s.pullWord
  .next { w.2 with pc := w.1 + 1 }

end Sys2Proof.Machine
end

