-- ==== Sys2Proof/Machine/LoadStore.lean ====
section
/-! DEFINITION. The meanings of the load and store instructions (41_load_store R119 to R125). -/

namespace Sys2Proof.Machine

/-- `v <- Val(); A <- v; SetNZ(v)` (R119, R120). -/
def loadA (o : Source) (s : State) : State :=
  let v := o.value s
  { v.2 with a := v.1, p := v.2.p.setNZ v.1 }

/-- `v <- Val(); X <- v; SetNZ(v)` (R119, R121). -/
def loadX (o : Source) (s : State) : State :=
  let v := o.value s
  { v.2 with x := v.1, p := v.2.p.setNZ v.1 }

/-- `v <- Val(); Y <- v; SetNZ(v)` (R119, R122). -/
def loadY (o : Source) (s : State) : State :=
  let v := o.value s
  { v.2 with y := v.1, p := v.2.p.setNZ v.1 }

/-- `MemWrite(operand, 1, v)` (R119): the effective address is written once and never read; no flag is written. -/
def store (m : MemMode) (v : Byte) (s : State) : State :=
  let r := m.resolve s
  r.2.memWrite r.1 v

/-- LDA, mode `imm` (R120). -/
def execLdaImm (d8 : Byte) (s : State) : Result := .next (loadA (.imm d8) s)

/-- LDA, mode `zp` (R120). -/
def execLdaZp (d8 : Byte) (s : State) : Result := .next (loadA (.mem (.zp d8)) s)

/-- LDA, mode `zpx` (R120). -/
def execLdaZpx (d8 : Byte) (s : State) : Result := .next (loadA (.mem (.zpx d8)) s)

/-- LDA, mode `abs` (R120). -/
def execLdaAbs (addr : Word) (s : State) : Result := .next (loadA (.mem (.abs addr)) s)

/-- LDA, mode `abx` (R120). -/
def execLdaAbx (addr : Word) (s : State) : Result := .next (loadA (.mem (.abx addr)) s)

/-- LDA, mode `aby` (R120). -/
def execLdaAby (addr : Word) (s : State) : Result := .next (loadA (.mem (.aby addr)) s)

/-- LDA, mode `izx` (R120). -/
def execLdaIzx (d8 : Byte) (s : State) : Result := .next (loadA (.mem (.izx d8)) s)

/-- LDA, mode `izy` (R120). -/
def execLdaIzy (d8 : Byte) (s : State) : Result := .next (loadA (.mem (.izy d8)) s)

/-- LDX, mode `imm` (R121). -/
def execLdxImm (d8 : Byte) (s : State) : Result := .next (loadX (.imm d8) s)

/-- LDX, mode `zp` (R121). -/
def execLdxZp (d8 : Byte) (s : State) : Result := .next (loadX (.mem (.zp d8)) s)

/-- LDX, mode `zpy` (R121). -/
def execLdxZpy (d8 : Byte) (s : State) : Result := .next (loadX (.mem (.zpy d8)) s)

/-- LDX, mode `abs` (R121). -/
def execLdxAbs (addr : Word) (s : State) : Result := .next (loadX (.mem (.abs addr)) s)

/-- LDX, mode `aby` (R121). -/
def execLdxAby (addr : Word) (s : State) : Result := .next (loadX (.mem (.aby addr)) s)

/-- LDY, mode `imm` (R122). -/
def execLdyImm (d8 : Byte) (s : State) : Result := .next (loadY (.imm d8) s)

/-- LDY, mode `zp` (R122). -/
def execLdyZp (d8 : Byte) (s : State) : Result := .next (loadY (.mem (.zp d8)) s)

/-- LDY, mode `zpx` (R122). -/
def execLdyZpx (d8 : Byte) (s : State) : Result := .next (loadY (.mem (.zpx d8)) s)

/-- LDY, mode `abs` (R122). -/
def execLdyAbs (addr : Word) (s : State) : Result := .next (loadY (.mem (.abs addr)) s)

/-- LDY, mode `abx` (R122). -/
def execLdyAbx (addr : Word) (s : State) : Result := .next (loadY (.mem (.abx addr)) s)

/-- STA, mode `zp` (R123). -/
def execStaZp (d8 : Byte) (s : State) : Result := .next (store (.zp d8) s.a s)

/-- STA, mode `zpx` (R123). -/
def execStaZpx (d8 : Byte) (s : State) : Result := .next (store (.zpx d8) s.a s)

/-- STA, mode `abs` (R123). -/
def execStaAbs (addr : Word) (s : State) : Result := .next (store (.abs addr) s.a s)

/-- STA, mode `abx` (R123). -/
def execStaAbx (addr : Word) (s : State) : Result := .next (store (.abx addr) s.a s)

/-- STA, mode `aby` (R123). -/
def execStaAby (addr : Word) (s : State) : Result := .next (store (.aby addr) s.a s)

/-- STA, mode `izx` (R123). -/
def execStaIzx (d8 : Byte) (s : State) : Result := .next (store (.izx d8) s.a s)

/-- STA, mode `izy` (R123). -/
def execStaIzy (d8 : Byte) (s : State) : Result := .next (store (.izy d8) s.a s)

/-- STX, mode `zp` (R124). -/
def execStxZp (d8 : Byte) (s : State) : Result := .next (store (.zp d8) s.x s)

/-- STX, mode `zpy` (R124). -/
def execStxZpy (d8 : Byte) (s : State) : Result := .next (store (.zpy d8) s.x s)

/-- STX, mode `abs` (R124). -/
def execStxAbs (addr : Word) (s : State) : Result := .next (store (.abs addr) s.x s)

/-- STY, mode `zp` (R125). -/
def execStyZp (d8 : Byte) (s : State) : Result := .next (store (.zp d8) s.y s)

/-- STY, mode `zpx` (R125). -/
def execStyZpx (d8 : Byte) (s : State) : Result := .next (store (.zpx d8) s.y s)

/-- STY, mode `abs` (R125). -/
def execStyAbs (addr : Word) (s : State) : Result := .next (store (.abs addr) s.y s)

end Sys2Proof.Machine
end

