-- ==== Sys2Proof/Machine/Shift.lean ====
section
/-! DEFINITION. The meanings of the shifts and rotates (48_alu_shift R197 to R201). -/

namespace Sys2Proof.Machine

/-- `Shift(f)` (R197): one byte, A or the byte at the effective address, goes through `f` with the old carry; the result goes
back where the byte came from, the new carry to P.C, and N and Z are set from the result. -/
def shiftTarget (f : Byte → Bool → Byte × Bool) (o : Target) (s : State) : State :=
  match o with
  | .acc =>
    let r := f s.a s.p.c
    { s with a := r.1, p := { s.p with c := r.2 }.setNZ r.1 }
  | .mem m =>
    s.modify m (fun v p =>
      let r := f v p.c
      (r.1, { p with c := r.2 }.setNZ r.1))

/-- ASL, mode `acc` (R198). -/
def execAslAcc (s : State) : Result := .next (shiftTarget shiftAsl .acc s)

/-- ASL, mode `zp` (R198). -/
def execAslZp (d8 : Byte) (s : State) : Result := .next (shiftTarget shiftAsl (.mem (.zp d8)) s)

/-- ASL, mode `zpx` (R198). -/
def execAslZpx (d8 : Byte) (s : State) : Result := .next (shiftTarget shiftAsl (.mem (.zpx d8)) s)

/-- ASL, mode `abs` (R198). -/
def execAslAbs (addr : Word) (s : State) : Result := .next (shiftTarget shiftAsl (.mem (.abs addr)) s)

/-- ASL, mode `abx` (R198). -/
def execAslAbx (addr : Word) (s : State) : Result := .next (shiftTarget shiftAsl (.mem (.abx addr)) s)

/-- LSR, mode `acc` (R199). -/
def execLsrAcc (s : State) : Result := .next (shiftTarget shiftLsr .acc s)

/-- LSR, mode `zp` (R199). -/
def execLsrZp (d8 : Byte) (s : State) : Result := .next (shiftTarget shiftLsr (.mem (.zp d8)) s)

/-- LSR, mode `zpx` (R199). -/
def execLsrZpx (d8 : Byte) (s : State) : Result := .next (shiftTarget shiftLsr (.mem (.zpx d8)) s)

/-- LSR, mode `abs` (R199). -/
def execLsrAbs (addr : Word) (s : State) : Result := .next (shiftTarget shiftLsr (.mem (.abs addr)) s)

/-- LSR, mode `abx` (R199). -/
def execLsrAbx (addr : Word) (s : State) : Result := .next (shiftTarget shiftLsr (.mem (.abx addr)) s)

/-- ROL, mode `acc` (R200). -/
def execRolAcc (s : State) : Result := .next (shiftTarget shiftRol .acc s)

/-- ROL, mode `zp` (R200). -/
def execRolZp (d8 : Byte) (s : State) : Result := .next (shiftTarget shiftRol (.mem (.zp d8)) s)

/-- ROL, mode `zpx` (R200). -/
def execRolZpx (d8 : Byte) (s : State) : Result := .next (shiftTarget shiftRol (.mem (.zpx d8)) s)

/-- ROL, mode `abs` (R200). -/
def execRolAbs (addr : Word) (s : State) : Result := .next (shiftTarget shiftRol (.mem (.abs addr)) s)

/-- ROL, mode `abx` (R200). -/
def execRolAbx (addr : Word) (s : State) : Result := .next (shiftTarget shiftRol (.mem (.abx addr)) s)

/-- ROR, mode `acc` (R201). -/
def execRorAcc (s : State) : Result := .next (shiftTarget shiftRor .acc s)

/-- ROR, mode `zp` (R201). -/
def execRorZp (d8 : Byte) (s : State) : Result := .next (shiftTarget shiftRor (.mem (.zp d8)) s)

/-- ROR, mode `zpx` (R201). -/
def execRorZpx (d8 : Byte) (s : State) : Result := .next (shiftTarget shiftRor (.mem (.zpx d8)) s)

/-- ROR, mode `abs` (R201). -/
def execRorAbs (addr : Word) (s : State) : Result := .next (shiftTarget shiftRor (.mem (.abs addr)) s)

/-- ROR, mode `abx` (R201). -/
def execRorAbx (addr : Word) (s : State) : Result := .next (shiftTarget shiftRor (.mem (.abx addr)) s)

end Sys2Proof.Machine
end

