-- ==== Sys2Proof/Machine/StackSystem.lean ====
section
/-! DEFINITION. The meanings of the stack and system instructions and of the unimplemented bytes (49_stack_system R210 to R217). -/

namespace Sys2Proof.Machine

/-- PHA (R210): push accumulator. -/
def execPha (s : State) : Result := .next (s.push s.a)

/-- PLA (R211): pull accumulator. -/
def execPla (s : State) : Result :=
  let v := s.pull
  .next { v.2 with a := v.1, p := v.2.p.setNZ v.1 }

/-- PHP (R212): push processor status. -/
def execPhp (s : State) : Result := .next (s.push s.p.pack)

/-- PLP (R213): pull processor status; P.B is not written. -/
def execPlp (s : State) : Result :=
  let b := s.pull
  .next { b.2 with p := b.2.p.unpack b.1 }

/-- BRK (R214): the software interrupt.  PC being at the opcode's address plus 1, the return address skips one byte, which is
never read.  The status byte is packed before P.I is set. -/
def execBrk (s : State) : Result :=
  .next (s.takeTrap (s.pc + 1) s.p.pack Config.brkVector)

/-- RTI (R215): return from interrupt. -/
def execRti (s : State) : Result := .next s.returnFromTrap

/-- NOP (R216): PC has advanced in the fetch; nothing else happens. -/
def execNop (s : State) : Result := .next s

/-- UNIMPL (R217): raises UnimplementedOpcode with the opcode byte and `pc0`, the address it was fetched from, which is PC minus 1
since the one fetch of this step advanced PC by 1 (log 7). -/
def execUnimpl (opcode : Byte) (s : State) : Result :=
  .fault (.unimplementedOpcode opcode (s.pc - 1))

end Sys2Proof.Machine
end

