-- ==== Sys2Proof/Machine/Transfer.lean ====
section
/-! DEFINITION. The meanings of the register transfers (42_transfer R129 to R135). -/

namespace Sys2Proof.Machine

/-- TAX (R130): transfer A to X. -/
def execTax (s : State) : Result :=
  .next { s with x := s.a, p := s.p.setNZ s.a }

/-- TAY (R131): transfer A to Y. -/
def execTay (s : State) : Result :=
  .next { s with y := s.a, p := s.p.setNZ s.a }

/-- TXA (R132): transfer X to A. -/
def execTxa (s : State) : Result :=
  .next { s with a := s.x, p := s.p.setNZ s.x }

/-- TYA (R133): transfer Y to A. -/
def execTya (s : State) : Result :=
  .next { s with a := s.y, p := s.p.setNZ s.y }

/-- TSX (R134): transfer S to X. -/
def execTsx (s : State) : Result :=
  .next { s with x := s.sp, p := s.p.setNZ s.sp }

/-- TXS (R135): transfer X to S; no flag is written. -/
def execTxs (s : State) : Result := .next { s with sp := s.x }

end Sys2Proof.Machine
end

