-- ==== Sys2Proof/Machine/Dispatch.lean ====
section
/-! DEFINITION. Dispatch (40_execution_and_addressing R107): one arm per constructor of `Instr`, one direct call of its meaning.
`exec i s` is R90's `Execute`, with the mode's pointer reads: `s.pc` is past the instruction's bytes (10_state R25). -/

namespace Sys2Proof.Machine

def exec (i : Instr) (s : State) : Host.Outcome State Fault Refusal :=
  match i with
  -- Load and store (41_load_store)
  | .ldaImm d8 => Sys2Proof.Machine.execLdaImm d8 s
  | .ldaZp d8 => Sys2Proof.Machine.execLdaZp d8 s
  | .ldaZpx d8 => Sys2Proof.Machine.execLdaZpx d8 s
  | .ldaAbs addr => Sys2Proof.Machine.execLdaAbs addr s
  | .ldaAbx addr => Sys2Proof.Machine.execLdaAbx addr s
  | .ldaAby addr => Sys2Proof.Machine.execLdaAby addr s
  | .ldaIzx d8 => Sys2Proof.Machine.execLdaIzx d8 s
  | .ldaIzy d8 => Sys2Proof.Machine.execLdaIzy d8 s
  | .ldxImm d8 => Sys2Proof.Machine.execLdxImm d8 s
  | .ldxZp d8 => Sys2Proof.Machine.execLdxZp d8 s
  | .ldxZpy d8 => Sys2Proof.Machine.execLdxZpy d8 s
  | .ldxAbs addr => Sys2Proof.Machine.execLdxAbs addr s
  | .ldxAby addr => Sys2Proof.Machine.execLdxAby addr s
  | .ldyImm d8 => Sys2Proof.Machine.execLdyImm d8 s
  | .ldyZp d8 => Sys2Proof.Machine.execLdyZp d8 s
  | .ldyZpx d8 => Sys2Proof.Machine.execLdyZpx d8 s
  | .ldyAbs addr => Sys2Proof.Machine.execLdyAbs addr s
  | .ldyAbx addr => Sys2Proof.Machine.execLdyAbx addr s
  | .staZp d8 => Sys2Proof.Machine.execStaZp d8 s
  | .staZpx d8 => Sys2Proof.Machine.execStaZpx d8 s
  | .staAbs addr => Sys2Proof.Machine.execStaAbs addr s
  | .staAbx addr => Sys2Proof.Machine.execStaAbx addr s
  | .staAby addr => Sys2Proof.Machine.execStaAby addr s
  | .staIzx d8 => Sys2Proof.Machine.execStaIzx d8 s
  | .staIzy d8 => Sys2Proof.Machine.execStaIzy d8 s
  | .stxZp d8 => Sys2Proof.Machine.execStxZp d8 s
  | .stxZpy d8 => Sys2Proof.Machine.execStxZpy d8 s
  | .stxAbs addr => Sys2Proof.Machine.execStxAbs addr s
  | .styZp d8 => Sys2Proof.Machine.execStyZp d8 s
  | .styZpx d8 => Sys2Proof.Machine.execStyZpx d8 s
  | .styAbs addr => Sys2Proof.Machine.execStyAbs addr s
  -- Register transfer (42_transfer)
  | .tax => Sys2Proof.Machine.execTax s
  | .tay => Sys2Proof.Machine.execTay s
  | .txa => Sys2Proof.Machine.execTxa s
  | .tya => Sys2Proof.Machine.execTya s
  | .tsx => Sys2Proof.Machine.execTsx s
  | .txs => Sys2Proof.Machine.execTxs s
  -- Increment and decrement (43_increment_decrement)
  | .inx => Sys2Proof.Machine.execInx s
  | .iny => Sys2Proof.Machine.execIny s
  | .dex => Sys2Proof.Machine.execDex s
  | .dey => Sys2Proof.Machine.execDey s
  | .incZp d8 => Sys2Proof.Machine.execIncZp d8 s
  | .incZpx d8 => Sys2Proof.Machine.execIncZpx d8 s
  | .incAbs addr => Sys2Proof.Machine.execIncAbs addr s
  | .incAbx addr => Sys2Proof.Machine.execIncAbx addr s
  | .decZp d8 => Sys2Proof.Machine.execDecZp d8 s
  | .decZpx d8 => Sys2Proof.Machine.execDecZpx d8 s
  | .decAbs addr => Sys2Proof.Machine.execDecAbs addr s
  | .decAbx addr => Sys2Proof.Machine.execDecAbx addr s
  -- Compare (44_compare)
  | .cmpImm d8 => Sys2Proof.Machine.execCmpImm d8 s
  | .cmpZp d8 => Sys2Proof.Machine.execCmpZp d8 s
  | .cmpZpx d8 => Sys2Proof.Machine.execCmpZpx d8 s
  | .cmpAbs addr => Sys2Proof.Machine.execCmpAbs addr s
  | .cmpAbx addr => Sys2Proof.Machine.execCmpAbx addr s
  | .cmpAby addr => Sys2Proof.Machine.execCmpAby addr s
  | .cmpIzx d8 => Sys2Proof.Machine.execCmpIzx d8 s
  | .cmpIzy d8 => Sys2Proof.Machine.execCmpIzy d8 s
  | .cpxImm d8 => Sys2Proof.Machine.execCpxImm d8 s
  | .cpxZp d8 => Sys2Proof.Machine.execCpxZp d8 s
  | .cpxAbs addr => Sys2Proof.Machine.execCpxAbs addr s
  | .cpyImm d8 => Sys2Proof.Machine.execCpyImm d8 s
  | .cpyZp d8 => Sys2Proof.Machine.execCpyZp d8 s
  | .cpyAbs addr => Sys2Proof.Machine.execCpyAbs addr s
  -- Conditional branch (45_branch)
  | .bpl d8 => Sys2Proof.Machine.execBpl d8 s
  | .bmi d8 => Sys2Proof.Machine.execBmi d8 s
  | .bvc d8 => Sys2Proof.Machine.execBvc d8 s
  | .bvs d8 => Sys2Proof.Machine.execBvs d8 s
  | .bcc d8 => Sys2Proof.Machine.execBcc d8 s
  | .bcs d8 => Sys2Proof.Machine.execBcs d8 s
  | .bne d8 => Sys2Proof.Machine.execBne d8 s
  | .beq d8 => Sys2Proof.Machine.execBeq d8 s
  -- Jump, call, return (46_jump_call_return)
  | .jmpAbs addr => Sys2Proof.Machine.execJmpAbs addr s
  | .jmpInd addr => Sys2Proof.Machine.execJmpInd addr s
  | .jsr addr => Sys2Proof.Machine.execJsr addr s
  | .rts => Sys2Proof.Machine.execRts s
  -- Flag set and clear (47_flag_set_clear)
  | .clc => Sys2Proof.Machine.execClc s
  | .sec => Sys2Proof.Machine.execSec s
  | .cli => Sys2Proof.Machine.execCli s
  | .sei => Sys2Proof.Machine.execSei s
  | .clv => Sys2Proof.Machine.execClv s
  | .cld => Sys2Proof.Machine.execCld s
  | .sed => Sys2Proof.Machine.execSed s
  -- Arithmetic, logic, bit test (48_alu_shift)
  | .adcImm d8 => Sys2Proof.Machine.execAdcImm d8 s
  | .adcZp d8 => Sys2Proof.Machine.execAdcZp d8 s
  | .adcZpx d8 => Sys2Proof.Machine.execAdcZpx d8 s
  | .adcAbs addr => Sys2Proof.Machine.execAdcAbs addr s
  | .adcAbx addr => Sys2Proof.Machine.execAdcAbx addr s
  | .adcAby addr => Sys2Proof.Machine.execAdcAby addr s
  | .adcIzx d8 => Sys2Proof.Machine.execAdcIzx d8 s
  | .adcIzy d8 => Sys2Proof.Machine.execAdcIzy d8 s
  | .sbcImm d8 => Sys2Proof.Machine.execSbcImm d8 s
  | .sbcZp d8 => Sys2Proof.Machine.execSbcZp d8 s
  | .sbcZpx d8 => Sys2Proof.Machine.execSbcZpx d8 s
  | .sbcAbs addr => Sys2Proof.Machine.execSbcAbs addr s
  | .sbcAbx addr => Sys2Proof.Machine.execSbcAbx addr s
  | .sbcAby addr => Sys2Proof.Machine.execSbcAby addr s
  | .sbcIzx d8 => Sys2Proof.Machine.execSbcIzx d8 s
  | .sbcIzy d8 => Sys2Proof.Machine.execSbcIzy d8 s
  | .andImm d8 => Sys2Proof.Machine.execAndImm d8 s
  | .andZp d8 => Sys2Proof.Machine.execAndZp d8 s
  | .andZpx d8 => Sys2Proof.Machine.execAndZpx d8 s
  | .andAbs addr => Sys2Proof.Machine.execAndAbs addr s
  | .andAbx addr => Sys2Proof.Machine.execAndAbx addr s
  | .andAby addr => Sys2Proof.Machine.execAndAby addr s
  | .andIzx d8 => Sys2Proof.Machine.execAndIzx d8 s
  | .andIzy d8 => Sys2Proof.Machine.execAndIzy d8 s
  | .oraImm d8 => Sys2Proof.Machine.execOraImm d8 s
  | .oraZp d8 => Sys2Proof.Machine.execOraZp d8 s
  | .oraZpx d8 => Sys2Proof.Machine.execOraZpx d8 s
  | .oraAbs addr => Sys2Proof.Machine.execOraAbs addr s
  | .oraAbx addr => Sys2Proof.Machine.execOraAbx addr s
  | .oraAby addr => Sys2Proof.Machine.execOraAby addr s
  | .oraIzx d8 => Sys2Proof.Machine.execOraIzx d8 s
  | .oraIzy d8 => Sys2Proof.Machine.execOraIzy d8 s
  | .eorImm d8 => Sys2Proof.Machine.execEorImm d8 s
  | .eorZp d8 => Sys2Proof.Machine.execEorZp d8 s
  | .eorZpx d8 => Sys2Proof.Machine.execEorZpx d8 s
  | .eorAbs addr => Sys2Proof.Machine.execEorAbs addr s
  | .eorAbx addr => Sys2Proof.Machine.execEorAbx addr s
  | .eorAby addr => Sys2Proof.Machine.execEorAby addr s
  | .eorIzx d8 => Sys2Proof.Machine.execEorIzx d8 s
  | .eorIzy d8 => Sys2Proof.Machine.execEorIzy d8 s
  | .bitZp d8 => Sys2Proof.Machine.execBitZp d8 s
  | .bitAbs addr => Sys2Proof.Machine.execBitAbs addr s
  -- Shift and rotate (48_alu_shift)
  | .aslAcc => Sys2Proof.Machine.execAslAcc s
  | .aslZp d8 => Sys2Proof.Machine.execAslZp d8 s
  | .aslZpx d8 => Sys2Proof.Machine.execAslZpx d8 s
  | .aslAbs addr => Sys2Proof.Machine.execAslAbs addr s
  | .aslAbx addr => Sys2Proof.Machine.execAslAbx addr s
  | .lsrAcc => Sys2Proof.Machine.execLsrAcc s
  | .lsrZp d8 => Sys2Proof.Machine.execLsrZp d8 s
  | .lsrZpx d8 => Sys2Proof.Machine.execLsrZpx d8 s
  | .lsrAbs addr => Sys2Proof.Machine.execLsrAbs addr s
  | .lsrAbx addr => Sys2Proof.Machine.execLsrAbx addr s
  | .rolAcc => Sys2Proof.Machine.execRolAcc s
  | .rolZp d8 => Sys2Proof.Machine.execRolZp d8 s
  | .rolZpx d8 => Sys2Proof.Machine.execRolZpx d8 s
  | .rolAbs addr => Sys2Proof.Machine.execRolAbs addr s
  | .rolAbx addr => Sys2Proof.Machine.execRolAbx addr s
  | .rorAcc => Sys2Proof.Machine.execRorAcc s
  | .rorZp d8 => Sys2Proof.Machine.execRorZp d8 s
  | .rorZpx d8 => Sys2Proof.Machine.execRorZpx d8 s
  | .rorAbs addr => Sys2Proof.Machine.execRorAbs addr s
  | .rorAbx addr => Sys2Proof.Machine.execRorAbx addr s
  -- Stack, system, unimplemented bytes (49_stack_system)
  | .pha => Sys2Proof.Machine.execPha s
  | .pla => Sys2Proof.Machine.execPla s
  | .php => Sys2Proof.Machine.execPhp s
  | .plp => Sys2Proof.Machine.execPlp s
  | .brk => Sys2Proof.Machine.execBrk s
  | .rti => Sys2Proof.Machine.execRti s
  | .nop => Sys2Proof.Machine.execNop s
  | .unimpl opcode => Sys2Proof.Machine.execUnimpl opcode s

end Sys2Proof.Machine
end

