-- ==== Sys2Proof/Machine/Fetch.lean ====
section
/-! DEFINITION. The first half of a step (40_execution_and_addressing R90 to R93): a fresh output, the opcode fetch, the table
lookup, the operand-byte fetches of the entry's format, in ascending address order. -/

namespace Sys2Proof.Machine

/-- A step begins with nothing returned and no access made (log 5). -/
def State.beginStep (s : State) : State := { s with out := { cycles := none, accesses := [] } }

/-- The fetch of one instruction: one read per byte of the instruction and no other (R91, 20_memory R54); an unimplemented byte is
found before any operand byte is read (R90, R217). -/
def State.fetchInstr (s : State) : Instr × State :=
  let op := s.fetch
  match entryOf op.1 with
  | .f1 i => (i, op.2)
  | .f2 make =>
    let d8 := op.2.fetch
    (make d8.1, d8.2)
  | .f3 make =>
    let lo := op.2.fetch
    let hi := lo.2.fetch
    (make (joinBytes hi.1 lo.1), hi.2)
  | .unimpl => (.unimpl op.1, op.2)

/-- Sets the cycle count the step returns (R108). -/
def State.returning (s : State) (cycles : Option Nat) : State := { s with out := { s.out with cycles := cycles } }

/-- Stores the three bytes of a table word where the next step fetches, in plain RAM (log 10). -/
def State.placeBytes (s : State) (bytes : List Byte) : State :=
  { s with
    bus := (((s.bus.withRamAt s.pc).write s.pc (bytes.getD 0 0)).write (s.pc + 1) (bytes.getD 1 0)).write (s.pc + 2)
      (bytes.getD 2 0) }

end Sys2Proof.Machine
end

