-- ==== Sys2Proof/Machine/Step.lean ====
section
/-! DEFINITION. One step (40_execution_and_addressing R90): fetch, look up, execute, return the base cycle count.
A step answers a next state or the fault of an unimplemented byte (R108, 60_exceptions R230). -/

namespace Sys2Proof.Machine

/-- `step` (R90). -/
def step (s : State) : Host.Outcome State Fault Refusal :=
  let r := s.beginStep.fetchInstr
  exec r.1 (r.2.returning r.1.baseCycles)

/-- The state with the instruction of a table word stored at PC, where the next step fetches it (log 10). -/
def State.withFetchWord (s : State) (nbits w : Nat) : State := s.placeBytes (tableWordBytes nbits w)

end Sys2Proof.Machine
end

