-- ==== Sys2Proof/Machine/HostAgent.lean ====
section
/-! DEFINITION. The host's moves between steps that the spec spells out: reset (70_reset_and_hazards R260) and the emulated hardware
interrupts (60_exceptions R236).  They belong to an agent of their own and are no part of `step` (log 9).
The host's other moves, writing any register or any byte between steps (10_state R24; 92 D19), need no definition: a statement over
every state covers the state they leave. -/

namespace Sys2Proof.Machine

/-- The reset operation (R260, R261, R262): two bus reads, no write; what it leaves unspecified is the draw. -/
def State.hostReset (draw : ResetDraw) (s : State) : State :=
  let v := { s with out := { cycles := none, accesses := [] } }.read16 Config.resetVector
  { v.2 with
    pc := v.1, sp := Config.resetS, a := draw.a, x := draw.x, y := draw.y,
    p := { n := draw.n, v := draw.v, b := true, d := draw.d, i := true, z := draw.z, c := draw.c } }

/-- The status byte an emulated hardware interrupt pushes: `pack(P)` with bit 4 cleared (R236). -/
def Status.packForInterrupt (p : Status) : Byte := p.pack &&& 0xEF

/-- The host's emulation of an NMI between two steps (R236). -/
def State.hostNmi (s : State) : State := s.takeTrap s.pc s.p.packForInterrupt Config.nmiVector

/-- The host's emulation of an IRQ between two steps (R236): only when P.I is 0. -/
def State.hostIrq (s : State) : State :=
  if s.p.i then s else s.takeTrap s.pc s.p.packForInterrupt Config.brkVector

end Sys2Proof.Machine
end

