-- ==== Sys2Proof/Safety.lean ====
section
/-! DEFINITION. What counts as a safe run, in the terms statements use: the invariant every step keeps, a run that meets no
unimplemented byte (60_exceptions R231), and what it means for a list of bus accesses to account for a bus (20_memory R62). -/

namespace Sys2Proof.Machine

/-- The invariant: the memory cells have their canonical form, and P.B is 1 (10_state R34).  The spec's own premise for the second half is
that the host has not cleared P.B between steps. -/
def State.Inv (s : State) : Prop := s.bus.mem.wf ∧ s.p.b = true

/-- A run of `k` steps that ends in a state, without a fault and without a refusal. -/
def RunsTo (k : Nat) (s t : State) : Prop := Host.Core.run Sys2Proof.core k s = .next t

/-- Replays a list of accesses over a bus: a read must return the byte the bus gives at that moment, and reads and writes change
the bus; the answer is the bus at the end, or none where a read returned another byte (R62). -/
def replay : Bus → List BusAccess → Option Bus
  | b, [] => some b
  | b, .read a v :: rest => if b.peek a = v then replay (b.read a).2 rest else none
  | b, .write a v :: rest => replay (b.write a v) rest

end Sys2Proof.Machine
end

