-- ==== Sys2Proof/Certificates/Slice0/Obligations.lean ====
section
/-! DEFINITION. The statements for the provers.  `Forms` lists, for each mnemonic with several addressing modes, its instructions beside
the operand each resolves (30_encoding R76); a statement about a mnemonic ranges over that list, so it covers every form.
Docstrings name the rule of the spec a statement formalises.  Where a rule's own text carries a mark of the spec (a decision `D<n>` of
92_eei_decisions, or `[derived: ...]`), or where a statement rests on a row of the assumption log, the docstring says so. -/

namespace Sys2Proof.Forms

open Sys2Proof.Machine

/-- LDA (R120). -/
def lda (d8 : Byte) (addr : Word) : List (Instr × Source) :=
  [(.ldaImm d8, .imm d8), (.ldaZp d8, .mem (.zp d8)), (.ldaZpx d8, .mem (.zpx d8)),
   (.ldaAbs addr, .mem (.abs addr)), (.ldaAbx addr, .mem (.abx addr)), (.ldaAby addr, .mem (.aby addr)),
   (.ldaIzx d8, .mem (.izx d8)), (.ldaIzy d8, .mem (.izy d8))]

/-- LDX (R121). -/
def ldx (d8 : Byte) (addr : Word) : List (Instr × Source) :=
  [(.ldxImm d8, .imm d8), (.ldxZp d8, .mem (.zp d8)), (.ldxZpy d8, .mem (.zpy d8)),
   (.ldxAbs addr, .mem (.abs addr)), (.ldxAby addr, .mem (.aby addr))]

/-- LDY (R122). -/
def ldy (d8 : Byte) (addr : Word) : List (Instr × Source) :=
  [(.ldyImm d8, .imm d8), (.ldyZp d8, .mem (.zp d8)), (.ldyZpx d8, .mem (.zpx d8)),
   (.ldyAbs addr, .mem (.abs addr)), (.ldyAbx addr, .mem (.abx addr))]

/-- CMP (R150). -/
def cmp (d8 : Byte) (addr : Word) : List (Instr × Source) :=
  [(.cmpImm d8, .imm d8), (.cmpZp d8, .mem (.zp d8)), (.cmpZpx d8, .mem (.zpx d8)),
   (.cmpAbs addr, .mem (.abs addr)), (.cmpAbx addr, .mem (.abx addr)), (.cmpAby addr, .mem (.aby addr)),
   (.cmpIzx d8, .mem (.izx d8)), (.cmpIzy d8, .mem (.izy d8))]

/-- CPX (R151). -/
def cpx (d8 : Byte) (addr : Word) : List (Instr × Source) :=
  [(.cpxImm d8, .imm d8), (.cpxZp d8, .mem (.zp d8)), (.cpxAbs addr, .mem (.abs addr))]

/-- CPY (R152). -/
def cpy (d8 : Byte) (addr : Word) : List (Instr × Source) :=
  [(.cpyImm d8, .imm d8), (.cpyZp d8, .mem (.zp d8)), (.cpyAbs addr, .mem (.abs addr))]

/-- ADC (R191). -/
def adc (d8 : Byte) (addr : Word) : List (Instr × Source) :=
  [(.adcImm d8, .imm d8), (.adcZp d8, .mem (.zp d8)), (.adcZpx d8, .mem (.zpx d8)),
   (.adcAbs addr, .mem (.abs addr)), (.adcAbx addr, .mem (.abx addr)), (.adcAby addr, .mem (.aby addr)),
   (.adcIzx d8, .mem (.izx d8)), (.adcIzy d8, .mem (.izy d8))]

/-- SBC (R192). -/
def sbc (d8 : Byte) (addr : Word) : List (Instr × Source) :=
  [(.sbcImm d8, .imm d8), (.sbcZp d8, .mem (.zp d8)), (.sbcZpx d8, .mem (.zpx d8)),
   (.sbcAbs addr, .mem (.abs addr)), (.sbcAbx addr, .mem (.abx addr)), (.sbcAby addr, .mem (.aby addr)),
   (.sbcIzx d8, .mem (.izx d8)), (.sbcIzy d8, .mem (.izy d8))]

/-- AND (R193). -/
def and (d8 : Byte) (addr : Word) : List (Instr × Source) :=
  [(.andImm d8, .imm d8), (.andZp d8, .mem (.zp d8)), (.andZpx d8, .mem (.zpx d8)),
   (.andAbs addr, .mem (.abs addr)), (.andAbx addr, .mem (.abx addr)), (.andAby addr, .mem (.aby addr)),
   (.andIzx d8, .mem (.izx d8)), (.andIzy d8, .mem (.izy d8))]

/-- ORA (R194). -/
def ora (d8 : Byte) (addr : Word) : List (Instr × Source) :=
  [(.oraImm d8, .imm d8), (.oraZp d8, .mem (.zp d8)), (.oraZpx d8, .mem (.zpx d8)),
   (.oraAbs addr, .mem (.abs addr)), (.oraAbx addr, .mem (.abx addr)), (.oraAby addr, .mem (.aby addr)),
   (.oraIzx d8, .mem (.izx d8)), (.oraIzy d8, .mem (.izy d8))]

/-- EOR (R195). -/
def eor (d8 : Byte) (addr : Word) : List (Instr × Source) :=
  [(.eorImm d8, .imm d8), (.eorZp d8, .mem (.zp d8)), (.eorZpx d8, .mem (.zpx d8)),
   (.eorAbs addr, .mem (.abs addr)), (.eorAbx addr, .mem (.abx addr)), (.eorAby addr, .mem (.aby addr)),
   (.eorIzx d8, .mem (.izx d8)), (.eorIzy d8, .mem (.izy d8))]

/-- STA (R123). -/
def sta (d8 : Byte) (addr : Word) : List (Instr × MemMode) :=
  [(.staZp d8, .zp d8), (.staZpx d8, .zpx d8), (.staAbs addr, .abs addr), (.staAbx addr, .abx addr),
   (.staAby addr, .aby addr), (.staIzx d8, .izx d8), (.staIzy d8, .izy d8)]

/-- STX (R124). -/
def stx (d8 : Byte) (addr : Word) : List (Instr × MemMode) :=
  [(.stxZp d8, .zp d8), (.stxZpy d8, .zpy d8), (.stxAbs addr, .abs addr)]

/-- STY (R125). -/
def sty (d8 : Byte) (addr : Word) : List (Instr × MemMode) :=
  [(.styZp d8, .zp d8), (.styZpx d8, .zpx d8), (.styAbs addr, .abs addr)]

/-- INC (R144). -/
def inc (d8 : Byte) (addr : Word) : List (Instr × MemMode) :=
  [(.incZp d8, .zp d8), (.incZpx d8, .zpx d8), (.incAbs addr, .abs addr), (.incAbx addr, .abx addr)]

/-- DEC (R145). -/
def dec (d8 : Byte) (addr : Word) : List (Instr × MemMode) :=
  [(.decZp d8, .zp d8), (.decZpx d8, .zpx d8), (.decAbs addr, .abs addr), (.decAbx addr, .abx addr)]

/-- BIT (R196). -/
def bit (d8 : Byte) (addr : Word) : List (Instr × MemMode) :=
  [(.bitZp d8, .zp d8), (.bitAbs addr, .abs addr)]

/-- ASL on memory (R198). -/
def aslMem (d8 : Byte) (addr : Word) : List (Instr × MemMode) :=
  [(.aslZp d8, .zp d8), (.aslZpx d8, .zpx d8), (.aslAbs addr, .abs addr), (.aslAbx addr, .abx addr)]

/-- LSR on memory (R199). -/
def lsrMem (d8 : Byte) (addr : Word) : List (Instr × MemMode) :=
  [(.lsrZp d8, .zp d8), (.lsrZpx d8, .zpx d8), (.lsrAbs addr, .abs addr), (.lsrAbx addr, .abx addr)]

/-- ROL on memory (R200). -/
def rolMem (d8 : Byte) (addr : Word) : List (Instr × MemMode) :=
  [(.rolZp d8, .zp d8), (.rolZpx d8, .zpx d8), (.rolAbs addr, .abs addr), (.rolAbx addr, .abx addr)]

/-- ROR on memory (R201). -/
def rorMem (d8 : Byte) (addr : Word) : List (Instr × MemMode) :=
  [(.rorZp d8, .zp d8), (.rorZpx d8, .zpx d8), (.rorAbs addr, .abs addr), (.rorAbx addr, .abx addr)]

/-- A shift's two kinds of target (R197): the accumulator, and the byte at an effective address. -/
def shift (acc : Instr) (mem : List (Instr × MemMode)) : List (Instr × Target) :=
  (acc, .acc) :: mem.map (fun f => (f.1, .mem f.2))

/-- Every form that stores to its effective address (R119, R139, R197). -/
def storing (d8 : Byte) (addr : Word) : List (Instr × MemMode) :=
  sta d8 addr ++ stx d8 addr ++ sty d8 addr ++ inc d8 addr ++ dec d8 addr ++ aslMem d8 addr ++ lsrMem d8 addr ++
    rolMem d8 addr ++ rorMem d8 addr

/-- The mnemonics that store, to memory or to the stack page. -/
def storers : List Mnemonic := [.STA, .STX, .STY, .INC, .DEC, .ASL, .LSR, .ROL, .ROR, .PHA, .PHP, .JSR, .BRK]

/-- R31 in numbers: N is 1 exactly for 0x80 to 0xFF, Z exactly for 0x00; the other flags stay. -/
def withNZ (p : Status) (v : Byte) : Status := { p with n := decide (128 ≤ v.toNat), z := decide (v.toNat = 0) }

/-- A byte plus 1 and a byte minus 1, modulo 256 (R139). -/
def up (v : Byte) : Byte := BitVec.ofNat 8 ((v.toNat + 1) % 256)
def down (v : Byte) : Byte := BitVec.ofNat 8 ((v.toNat + 255) % 256)

/-- R149 in numbers: unsigned C, Z, and N from bit 7 of the wrapped difference. -/
def compared (p : Status) (r v : Byte) : Status :=
  { p with
    c := decide (v.toNat ≤ r.toNat), z := decide (r.toNat = v.toNat),
    n := decide (128 ≤ (r.toNat + 256 - v.toNat) % 256) }

/-- The accesses an output lists, with more at the end. -/
def also (o : StepOutput) (more : List BusAccess) : StepOutput := { o with accesses := o.accesses ++ more }

/-- The accesses an instruction has added to the list. -/
def newAccesses (s t : State) : List BusAccess := t.out.accesses.drop s.out.accesses.length

/-- A read-modify-write of the byte at a mode's effective address: read once, `r` of it written back once, N and Z from the result, the
carry as given, everything else unchanged (R64, R139, R197). -/
def modified (s : State) (m : MemMode) (r : Byte → Byte) (carry : Byte → Bool) : State :=
  let ea := m.resolve s
  let v := ea.2.bus.read ea.1
  { s with
    bus := v.2.write ea.1 (r v.1), p := { withNZ s.p (r v.1) with c := carry v.1 },
    out := also ea.2.out [.read ea.1 v.1, .write ea.1 (r v.1)] }

/-- R197 for a shift given in numbers: the byte comes from A or from the effective address, the result goes back there. -/
def shifted (s : State) (o : Target) (r : Byte → Nat) (carry : Byte → Bool) : State :=
  match o with
  | .acc =>
    { s with
      a := BitVec.ofNat 8 (r s.a), p := { withNZ s.p (BitVec.ofNat 8 (r s.a)) with c := carry s.a } }
  | .mem m => modified s m (fun v => BitVec.ofNat 8 (r v)) carry

/-- Reads of a bus in a row, at ascending addresses: each address with the byte the bus gave, and the bus after them (R54, R91). -/
def readUp : Nat → Bus → Word → List (Word × Byte) × Bus
  | 0, b, _ => ([], b)
  | n + 1, b, a =>
    let r := b.read a
    let rest := readUp n r.2 (a + 1)
    ((a, r.1) :: rest.1, rest.2)

/-- The state after a step's instruction bytes have been fetched: PC past them, one read made and listed for each (R54, R91). -/
def afterFetch (s : State) (i : Instr) : State :=
  let r := readUp i.length s.bus s.pc
  { s with
    pc := s.pc + BitVec.ofNat 16 i.length, bus := r.2,
    out := { cycles := i.baseCycles, accesses := r.1.map fun c => .read c.1 c.2 } }

/-- The three bytes the bus would give from PC on. -/
def bytesAtPC (s : State) : List Byte := (readUp 3 s.bus s.pc).1.map fun c => c.2

/-- Whether an access reaches the devices. -/
def reachesDevices (b : Bus) : BusAccess → Bool
  | .read a _ => (b.place a).kind == .device
  | .write a _ => (b.place a).kind == .device || (b.place a).kind == .romPort

/-- The frame of a bus: the map stays, and so does the byte at every address that memory answers, but where the address reaches the RAM
cell of one of the addresses stored to. -/
def keptBut (b d : Bus) (stored : List Word) : Prop :=
  d.map = b.map ∧
  ∀ a : Word, (b.place a).kind ≠ .device →
    (∀ w ∈ stored, (b.place w).kind = .ram → (b.place w).cell ≠ (b.place a).cell) → d.peek a = b.peek a

/-- Addresses that are RAM, no two of them mirrors of each other. -/
abbrev plainRam (b : Bus) (as : List Word) : Prop :=
  (∀ a ∈ as, (b.place a).kind = .ram) ∧ as.Pairwise fun a c => (b.place a).cell ≠ (b.place c).cell

/-- What a stored byte reads back as at the address it was stored to. -/
def readsBack (s t : State) (ea : Word) (v : Byte) : Prop :=
  ((s.bus.place ea).kind = .ram → t.bus.peek ea = v) ∧
  ((s.bus.place ea).kind = .rom ∨ (s.bus.place ea).kind = .romPort → t.bus.peek ea = s.bus.peek ea)

/-- The stack locations the next `n` pushes fill, the first one first (R56). -/
def stackBelow (s : State) (n : Nat) : List Word := (List.range n).map fun k => stackAddr (s.sp - BitVec.ofNat 8 k)

/-- The bus gives the next pulls these bytes. -/
def pullsBack : State → List Byte → Prop
  | _, [] => True
  | r, b :: rest => r.pull.1 = b ∧ pullsBack r.pull.2 rest

/-- The `n` locations pushed to between `s` and `t` are plain RAM, and `r` has the map and those bytes as `t` has them. -/
def stackLeft (s t r : State) (n : Nat) : Prop :=
  plainRam s.bus (stackBelow s n) ∧ r.bus.map = t.bus.map ∧ ∀ a ∈ stackBelow s n, r.bus.peek a = t.bus.peek a

end Sys2Proof.Forms

open Sys2Proof Sys2Proof.Machine

/-! ## Encoding -/

/-- A few words of the opcode matrix, one or more from each family, written bit by bit from the `encoding` column (R75, R76; the
bytes are the spec's decision D22). -/
def Obligations.OpcodeMatrixWordsDecode : Prop :=
  decode [0b10101001, 0b10000000] = .ok (.ldaImm 0x80, []) ∧
  decode [0b10010110, 0b11110000] = .ok (.stxZpy 0xF0, []) ∧
  decode [0b10011010] = .ok (.txs, []) ∧
  decode [0b11111110, 0b00000000, 0b00000010] = .ok (.incAbx 0x0200, []) ∧
  decode [0b11010001, 0b00100000] = .ok (.cmpIzy 0x20, []) ∧
  decode [0b00010000, 0b11111011] = .ok (.bpl 0xFB, []) ∧
  decode [0b01101100, 0b11111111, 0b00000010] = .ok (.jmpInd 0x02FF, []) ∧
  decode [0b11111000] = .ok (.sed, []) ∧
  decode [0b11100001, 0b00100000] = .ok (.sbcIzx 0x20, []) ∧
  decode [0b01101010] = .ok (.rorAcc, []) ∧
  decode [0b00000000, 0b11111111] = .ok (.brk, [0xFF]) ∧
  decode [0b11101011, 0b00000001] = .ok (.unimpl 0xEB, [0x01])

/-- Decoding the bytes of any well-formed instruction, with anything after them, gives that instruction back and leaves the rest:
no operand bit of any encoding is dropped (R70, R76, R77; opcode bytes D22). -/
def Obligations.DecodeOfEncodeIsIdentity : Prop :=
  ∀ (i : Instr) (rest : List Byte), i.wf = true → decode (encode i ++ rest) = .ok (i, rest)

/-- The other direction: what the decoder reads is well formed, and its bytes are exactly the bytes consumed, so each byte string
has one meaning (R70, R73, R78). -/
def Obligations.EncodeOfDecodeIsIdentity : Prop :=
  ∀ (bytes rest : List Byte) (i : Instr), decode bytes = .ok (i, rest) → i.wf = true ∧ encode i ++ rest = bytes

/-- R73, R77, R78: for every opcode byte and any operand bytes the lookup gives a defined entry, an unimplemented byte the marker
with no operand, any other byte an instruction with a mnemonic, a mode and a base cycle count. -/
def Obligations.OpcodeTableIsTotal : Prop :=
  ∀ (opcode b1 b2 : Byte),
    (opcode ∈ unimplementedBytes → decode [opcode, b1, b2] = .ok (.unimpl opcode, [b1, b2])) ∧
    (opcode ∉ unimplementedBytes →
      ∃ i rest, decode [opcode, b1, b2] = .ok (i, rest) ∧ i.mnemonic ≠ .UNIMPL ∧ i.mode ≠ .none ∧
        i.baseCycles.isSome = true)

/-- R72: the mnemonic, the mode and the length are told by the first byte alone, and the length is the number of bytes consumed. -/
def Obligations.FirstByteTellsLength : Prop :=
  ∀ (opcode b1 b2 c1 c2 : Byte) (i j : Instr) (ri rj : List Byte),
    decode [opcode, b1, b2] = .ok (i, ri) → decode [opcode, c1, c2] = .ok (j, rj) →
    i.mnemonic = j.mnemonic ∧ i.mode = j.mode ∧ i.length = j.length ∧ ri.length + i.length = 3

/-- R108, R268: base cycle counts run from 2 to 7, and only an unimplemented byte has none (figures: general knowledge U2). -/
def Obligations.BaseCyclesAreTwoToSeven : Prop :=
  ∀ i : Instr, (i.baseCycles = none ↔ i.mnemonic = .UNIMPL) ∧ ∀ n, i.baseCycles = some n → 2 ≤ n ∧ n ≤ 7

/-! ## The step -/

/-- R91: `Fetch()` is one read at PC, then PC plus 1, wrapping at 0xFFFF; a step uses it for the opcode and for every operand byte of
the instruction, in ascending address order, one read each, each read meeting the bus as the one before left it. -/
def Obligations.FetchReadsAtPCAndAdvances : Prop :=
  (∀ s : State,
    let r := s.bus.read s.pc
    s.fetch = (r.1, { s with
      pc := BitVec.ofNat 16 ((s.pc.toNat + 1) % 65536), bus := r.2,
      out := Forms.also s.out [.read s.pc r.1] })) ∧
  ∀ (s : State) (i : Instr) (rest : List Byte), decode (Forms.bytesAtPC s) = .ok (i, rest) →
    s.beginStep.fetchInstr.1 = i ∧ s.beginStep.fetchInstr.2.returning i.baseCycles = Forms.afterFetch s i

/-- R90: when the bytes at PC decode to `i`, a step is `exec i` on the state in which PC is past the bytes of `i`, each of them has
been read once, in ascending order, and the step's cycle count is the table's (log 5).  The bytes are what the bus answers to reads
in a row; only those of `i` are read. -/
def Obligations.StepRunsTheDecodedInstruction : Prop :=
  ∀ (s : State) (i : Instr) (rest : List Byte),
    decode (Forms.bytesAtPC s) = .ok (i, rest) → step s = exec i (Forms.afterFetch s i)

/-- R108, R266: a completed step returns the base count of its opcode; nothing is added for a taken branch or a page crossing
(D9). -/
def Obligations.StepReturnsBaseCycles : Prop :=
  ∀ (s t : State) (i : Instr) (rest : List Byte),
    decode (Forms.bytesAtPC s) = .ok (i, rest) → step s = .next t → t.out.cycles = i.baseCycles

/-- R109 (derived from R90 to R106): a step makes at most 6 bus accesses, the first of which is the opcode fetch. -/
def Obligations.StepMakesAtMostSixAccesses : Prop :=
  ∀ s t : State, step s = .next t →
    t.out.accesses.length ≤ 6 ∧ ∃ rest, t.out.accesses = .read s.pc (s.bus.peek s.pc) :: rest

/-- R54, R62, R67: the list of a step's accesses accounts for the whole bus, memory and devices, whatever the bus is.  Replayed in
order over the bus before the step, every read returns the byte the bus gives at that moment, and the bus at the end is the bus
after the step.  No access changes the map (log 12), and the devices change only by an access that reaches them. -/
def Obligations.AccessesAccountForMemory : Prop :=
  ∀ s t : State, step s = .next t →
    replay s.bus t.out.accesses = some t.bus ∧ t.bus.map = s.bus.map ∧
    ((∀ x ∈ t.out.accesses, Forms.reachesDevices s.bus x = false) → t.bus.devices = s.bus.devices)

/-- R108, R266, R39: no behaviour depends on what the last step put out (log 5). -/
def Obligations.StepIgnoresLastOutput : Prop :=
  ∀ (s : State) (o : StepOutput), step { s with out := o } = step s

/-- R217: an unimplemented byte raises UnimplementedOpcode with the byte fetched and the address it was fetched from, as a step and as
the meaning of the instruction. -/
def Obligations.UnimplementedByteFaults : Prop :=
  (∀ s : State, s.bus.peek s.pc ∈ unimplementedBytes →
    step s = .fault (.unimplementedOpcode (s.bus.peek s.pc) s.pc)) ∧
  ∀ (opcode : Byte) (s : State), exec (.unimpl opcode) s = .fault (.unimplementedOpcode opcode (s.pc - 1))

/-- R233: nothing else faults.  Whatever the registers and the memory hold, a step whose opcode byte is official completes. -/
def Obligations.OfficialOpcodeCompletes : Prop :=
  ∀ s : State, s.bus.peek s.pc ∉ unimplementedBytes → ∃ t, step s = .next t

/-- R230, R231, R78: a run is never refused, and it ends in a fault only at a state it reached whose next opcode byte is unimplemented;
the fault carries that byte and its address. -/
def Obligations.RunEndsOnlyAtUnimplementedByte : Prop :=
  ∀ (k : Nat) (s : State),
    (∀ r, Host.Core.run core k s ≠ .refused r) ∧
    ∀ f, Host.Core.run core k s = .fault f →
      ∃ j t, j < k ∧ RunsTo j s t ∧ t.bus.peek t.pc ∈ unimplementedBytes ∧
        f = .unimplementedOpcode (t.bus.peek t.pc) t.pc

/-! ## Invariants and reset -/

/-- The memory keeps its canonical form, and P.B stays 1 (R34, decision D10), over every step from every state, whatever the bus. -/
def Obligations.StepKeepsInvariant : Prop :=
  ∀ s t : State, s.Inv → step s = .next t → t.Inv

/-- The invariant holds along every run. -/
def Obligations.RunKeepsInvariant : Prop :=
  ∀ (k : Nat) (s t : State), s.Inv → RunsTo k s t → t.Inv

/-- The invariant holds right after reset: at `State.reset`, and after the host's reset of any state with a canonical memory, for any
draw. -/
def Obligations.ResetMeetsInvariant : Prop :=
  State.reset.Inv ∧ ∀ (draw : ResetDraw) (s : State), s.bus.mem.wf → (s.hostReset draw).Inv

/-- R260, R262, R40 (decisions D11, D15): PC from the little-endian word at 0xFFFC, S = 0xFD, I = 1, B = 1, two reads, low byte first, no
write, no cycle count; the other registers are whatever is drawn.  The model's choice (log 1, log 2, log 3): `State.reset` is that reset
of a state whose bus has no window and lists nothing, for one of the draws. -/
def Obligations.HostResetLeavesSpecifiedState : Prop :=
  (∀ (draw : ResetDraw) (s : State),
    let lo := s.bus.read 0xFFFC
    let hi := lo.2.read 0xFFFD
    s.hostReset draw =
      { a := draw.a, x := draw.x, y := draw.y, sp := 0xFD, pc := joinBytes hi.1 lo.1,
        p := { n := draw.n, v := draw.v, b := true, d := draw.d, i := true, z := draw.z, c := draw.c },
        bus := hi.2,
        out := { cycles := none, accesses := [.read 0xFFFC lo.1, .read 0xFFFD hi.1] } }) ∧
  ∃ (draw : ResetDraw) (s : State), s.bus.map = [] ∧ s.bus.mem = [] ∧ State.reset = s.hostReset draw

/-- The canonical form is canonical (log 2): two memories in it that read alike at every cell are equal. -/
def Obligations.EqualReadsMeanEqualMemory : Prop :=
  ∀ m m' : Memory, m.wf → m'.wf → (∀ a : Word, m.read a = m'.read a) → m = m'

/-! ## Whole-machine frames -/

/-- R30, with the writers R29 lists for each flag: an instruction that does not name a flag under "Flags written" leaves it.  That no
instruction writes P.B, PLP and RTI included, is R33 and R34, which rest on the spec's own decision D10 (log 4). -/
def Obligations.FlagsKeptUnlessNamed : Prop :=
  ∀ (i : Instr) (s t : State), exec i s = .next t →
    (i.mnemonic ∉ [.LDA, .LDX, .LDY, .TAX, .TAY, .TXA, .TYA, .TSX, .INX, .INY, .DEX, .DEY, .INC, .DEC, .ADC, .SBC, .AND, .ORA,
      .EOR, .ASL, .LSR, .ROL, .ROR, .PLA, .CMP, .CPX, .CPY, .BIT, .PLP, .RTI] → t.p.n = s.p.n ∧ t.p.z = s.p.z) ∧
    (i.mnemonic ∉ [.ADC, .SBC, .BIT, .CLV, .PLP, .RTI] → t.p.v = s.p.v) ∧
    t.p.b = s.p.b ∧
    (i.mnemonic ∉ [.CLD, .SED, .PLP, .RTI] → t.p.d = s.p.d) ∧
    (i.mnemonic ∉ [.CLI, .SEI, .BRK, .PLP, .RTI] → t.p.i = s.p.i) ∧
    (i.mnemonic ∉ [.ADC, .SBC, .CMP, .CPX, .CPY, .ASL, .LSR, .ROL, .ROR, .CLC, .SEC, .PLP, .RTI] → t.p.c = s.p.c)

/-- R20 to R23, R26: each register is written only by the instructions whose destination it is (the accumulator also by a shift in
mode `acc`), S only by TXS and the instructions that push or pull, and PC, once past the instruction, only by a transfer of control. -/
def Obligations.RegistersKeptUnlessDestination : Prop :=
  ∀ (i : Instr) (s t : State), exec i s = .next t →
    (i.mnemonic ∉ [.LDA, .TXA, .TYA, .PLA, .ADC, .SBC, .AND, .ORA, .EOR] → i.mode ≠ .acc → t.a = s.a) ∧
    (i.mnemonic ∉ [.LDX, .TAX, .TSX, .INX, .DEX] → t.x = s.x) ∧
    (i.mnemonic ∉ [.LDY, .TAY, .INY, .DEY] → t.y = s.y) ∧
    (i.mnemonic ∉ [.TXS, .PHA, .PLA, .PHP, .PLP, .JSR, .RTS, .BRK, .RTI] → t.sp = s.sp) ∧
    (i.mnemonic ∉ [.BPL, .BMI, .BVC, .BVS, .BCC, .BCS, .BNE, .BEQ, .JMP, .JSR, .RTS, .RTI, .BRK] → t.pc = s.pc)

/-- R54, R67: an instruction whose rule writes nothing to the bus (among them every shift in mode `acc`) makes no write, and leaves the map
and every byte that memory answers. -/
def Obligations.MemoryKeptUnlessStoring : Prop :=
  ∀ (i : Instr) (s t : State), exec i s = .next t → (i.mnemonic ∉ Forms.storers ∨ i.mode = .acc) →
    (∀ a v, .write a v ∉ Forms.newAccesses s t) ∧ Forms.keptBut s.bus t.bus []

/-- R119, R139, R197, R67: a store or a read-modify-write writes once, at the effective address its own mode resolves in the state before it,
and changes no byte that memory answers but at the RAM cell that address reaches. -/
def Obligations.StoringChangesOnlyEffectiveAddress : Prop :=
  ∀ (s t : State) (d8 : Byte) (addr : Word), ∀ f ∈ Forms.storing d8 addr, exec f.1 s = .next t →
    (∃ reads v, Forms.newAccesses s t = reads ++ [.write (f.2.resolve s).1 v] ∧ ∀ a w, .write a w ∉ reads) ∧
    Forms.keptBut s.bus t.bus [(f.2.resolve s).1]

/-- The store round trip of R124 and R62, for every form of STA, STX and STY: afterwards the register still holds its value, and the
effective address, where it is plain RAM, reads it; where it is ROM of either kind, it reads as before (log 12). -/
def Obligations.StoredByteReadsBack : Prop :=
  ∀ (s t : State) (d8 : Byte) (addr : Word),
    (∀ f ∈ Forms.sta d8 addr, exec f.1 s = .next t → t.a = s.a ∧ Forms.readsBack s t (f.2.resolve s).1 s.a) ∧
    (∀ f ∈ Forms.stx d8 addr, exec f.1 s = .next t → t.x = s.x ∧ Forms.readsBack s t (f.2.resolve s).1 s.x) ∧
    (∀ f ∈ Forms.sty d8 addr, exec f.1 s = .next t → t.y = s.y ∧ Forms.readsBack s t (f.2.resolve s).1 s.y)

/-- R23, R38, R58: an instruction that pushes writes only in the stack page, at the locations below S that it fills, and changes no other
byte that memory answers; over flat RAM none outside 0x0100 to 0x01FF. -/
def Obligations.PushesStayInStackPage : Prop :=
  ∀ (i : Instr) (n : Nat) (s t : State),
    (i, n) ∈ [(Instr.pha, 1), (.php, 1), (.brk, 3)] ∨ (n = 2 ∧ i.mnemonic = .JSR) → exec i s = .next t →
    (∀ a v, .write a v ∈ Forms.newAccesses s t → a ∈ Forms.stackBelow s n ∧ 0x0100 ≤ a.toNat ∧ a.toNat ≤ 0x01FF) ∧
    Forms.keptBut s.bus t.bus (Forms.stackBelow s n) ∧
    (s.bus.map = [] → ∀ a : Word, a.toNat < 0x0100 ∨ 0x01FF < a.toNat → t.bus.peek a = s.bus.peek a) ∧
    t.sp = s.sp - BitVec.ofNat 8 n

/-- R65 (derived): a byte stored by STA in plain RAM is the byte the very next opcode fetch at that address reads. -/
def Obligations.StoreSeenByNextFetch : Prop :=
  ∀ (s t r : State) (d8 : Byte) (addr : Word), ∀ f ∈ Forms.sta d8 addr, exec f.1 s = .next t →
    (s.bus.place (f.2.resolve s).1).kind = .ram → r.bus.map = t.bus.map → r.bus.mem = t.bus.mem →
    r.pc = (f.2.resolve s).1 → r.fetch.1 = s.a ∧ (s.a ∈ unimplementedBytes →
      step r = .fault (.unimplementedOpcode s.a r.pc))

/-- R35, R36, R190 (decision D8): P.D and P.I are read by nothing but `pack`.  Every instruction but PHP and BRK does the same whatever
they hold, so ADC and SBC are binary whatever P.D is. -/
def Obligations.DecimalAndInterruptReadOnlyByPack : Prop :=
  ∀ (i : Instr) (s t : State) (d' i' : Bool), i.mnemonic ∉ [.PHP, .BRK] → exec i s = .next t →
    ∃ u, exec i { s with p := { s.p with d := d', i := i' } } = .next u ∧
      { u with p := { u.p with d := t.p.d, i := t.p.i } } = t

/-! ## Addressing -/

/-- R96 to R98, R100 to R102: the modes without a pointer.  Zero-page sums wrap in 8 bits, absolute sums in 16; no access is made and
nothing else changes. -/
def Obligations.DirectModesResolve : Prop :=
  ∀ (s : State) (d8 : Byte) (addr : Word),
    (MemMode.zp d8).resolve s = (BitVec.ofNat 16 d8.toNat, s) ∧
    (MemMode.zpx d8).resolve s = (BitVec.ofNat 16 ((d8.toNat + s.x.toNat) % 256), s) ∧
    (MemMode.zpy d8).resolve s = (BitVec.ofNat 16 ((d8.toNat + s.y.toNat) % 256), s) ∧
    (MemMode.abs addr).resolve s = (addr, s) ∧
    (MemMode.abx addr).resolve s = (BitVec.ofNat 16 ((addr.toNat + s.x.toNat) % 65536), s) ∧
    (MemMode.aby addr).resolve s = (BitVec.ofNat 16 ((addr.toNat + s.y.toNat) % 65536), s)

/-- R104, R105 (pointer wrap: decision D5): the two zero-page pointer modes.  X is added before the pointer is read, in 8 bits, Y after
it, in 16; both pointer bytes come from the zero page, low byte first. -/
def Obligations.PointerModesResolve : Prop :=
  ∀ (s : State) (d8 : Byte),
    (let at0 := BitVec.ofNat 16 ((d8.toNat + s.x.toNat) % 256)
     let at1 := BitVec.ofNat 16 ((d8.toNat + s.x.toNat + 1) % 256)
     let lo := s.bus.read at0
     let hi := lo.2.read at1
     (MemMode.izx d8).resolve s =
       (BitVec.ofNat 16 (hi.1.toNat * 256 + lo.1.toNat),
         { s with bus := hi.2, out := Forms.also s.out [.read at0 lo.1, .read at1 hi.1] })) ∧
    (let at0 := BitVec.ofNat 16 d8.toNat
     let at1 := BitVec.ofNat 16 ((d8.toNat + 1) % 256)
     let lo := s.bus.read at0
     let hi := lo.2.read at1
     (MemMode.izy d8).resolve s =
       (BitVec.ofNat 16 ((hi.1.toNat * 256 + lo.1.toNat + s.y.toNat) % 65536),
         { s with bus := hi.2, out := Forms.also s.out [.read at0 lo.1, .read at1 hi.1] }))

/-- R106: an immediate is the value itself, with no access; every other source is exactly one read at the effective address, of the bus as
the mode's pointer reads left it. -/
def Obligations.OperandValueIsOneRead : Prop :=
  ∀ (s : State) (d8 : Byte) (m : MemMode),
    (Source.imm d8).value s = (d8, s) ∧
    (let ea := m.resolve s
     let v := ea.2.bus.read ea.1
     (Source.mem m).value s = (v.1, { s with bus := v.2, out := Forms.also ea.2.out [.read ea.1 v.1] }))

/-- R99 (decision D3): the branch target is the address of the following instruction plus the signed offset, modulo 65536. -/
def Obligations.BranchTargetIsSignedOffset : Prop :=
  ∀ (s : State) (d8 : Byte),
    (d8.toNat < 128 → (branchTarget d8 s).toNat = (s.pc.toNat + d8.toNat) % 65536) ∧
    (128 ≤ d8.toNat → (branchTarget d8 s).toNat = (s.pc.toNat + 65536 - (256 - d8.toNat)) % 65536)

/-! ## Load, store, transfer, increment, decrement, compare -/

/-- R119: a load copies the operand byte into its register and sets N and Z from it; a store writes its register at the effective
address, once, without reading it, and no flag.  Every other part of the state is unchanged. -/
def Obligations.LoadsAndStores : Prop :=
  ∀ (s : State) (d8 : Byte) (addr : Word),
    (∀ f ∈ Forms.lda d8 addr, exec f.1 s = .next { s with
      a := (f.2.value s).1, p := Forms.withNZ s.p (f.2.value s).1, bus := (f.2.value s).2.bus, out := (f.2.value s).2.out }) ∧
    (∀ f ∈ Forms.ldx d8 addr, exec f.1 s = .next { s with
      x := (f.2.value s).1, p := Forms.withNZ s.p (f.2.value s).1, bus := (f.2.value s).2.bus, out := (f.2.value s).2.out }) ∧
    (∀ f ∈ Forms.ldy d8 addr, exec f.1 s = .next { s with
      y := (f.2.value s).1, p := Forms.withNZ s.p (f.2.value s).1, bus := (f.2.value s).2.bus, out := (f.2.value s).2.out }) ∧
    (∀ f ∈ Forms.sta d8 addr, exec f.1 s = .next { s with
      bus := (f.2.resolve s).2.bus.write (f.2.resolve s).1 s.a,
      out := Forms.also (f.2.resolve s).2.out [.write (f.2.resolve s).1 s.a] }) ∧
    (∀ f ∈ Forms.stx d8 addr, exec f.1 s = .next { s with
      bus := (f.2.resolve s).2.bus.write (f.2.resolve s).1 s.x,
      out := Forms.also (f.2.resolve s).2.out [.write (f.2.resolve s).1 s.x] }) ∧
    (∀ f ∈ Forms.sty d8 addr, exec f.1 s = .next { s with
      bus := (f.2.resolve s).2.bus.write (f.2.resolve s).1 s.y,
      out := Forms.also (f.2.resolve s).2.out [.write (f.2.resolve s).1 s.y] })

/-- R129 to R135: one register is copied to another; N and Z from the value, except that TXS writes no flag. -/
def Obligations.RegisterTransfers : Prop :=
  ∀ s : State,
    exec .tax s = .next { s with x := s.a, p := Forms.withNZ s.p s.a } ∧
    exec .tay s = .next { s with y := s.a, p := Forms.withNZ s.p s.a } ∧
    exec .txa s = .next { s with a := s.x, p := Forms.withNZ s.p s.x } ∧
    exec .tya s = .next { s with a := s.y, p := Forms.withNZ s.p s.y } ∧
    exec .tsx s = .next { s with x := s.sp, p := Forms.withNZ s.p s.sp } ∧
    exec .txs s = .next { s with sp := s.x }

/-- R139 to R145: 1 is added or subtracted modulo 256, in a register or in the byte at the effective address, which is read once and
then written once; N and Z from the result; C and V keep their values. -/
def Obligations.IncrementsAndDecrements : Prop :=
  ∀ (s : State) (d8 : Byte) (addr : Word),
    exec .inx s = .next { s with x := Forms.up s.x, p := Forms.withNZ s.p (Forms.up s.x) } ∧
    exec .iny s = .next { s with y := Forms.up s.y, p := Forms.withNZ s.p (Forms.up s.y) } ∧
    exec .dex s = .next { s with x := Forms.down s.x, p := Forms.withNZ s.p (Forms.down s.x) } ∧
    exec .dey s = .next { s with y := Forms.down s.y, p := Forms.withNZ s.p (Forms.down s.y) } ∧
    (∀ f ∈ Forms.inc d8 addr, exec f.1 s = .next (Forms.modified s f.2 Forms.up (fun _ => s.p.c))) ∧
    (∀ f ∈ Forms.dec d8 addr, exec f.1 s = .next (Forms.modified s f.2 Forms.down (fun _ => s.p.c)))

/-- R149: a compare writes C = (register >= operand), unsigned, Z = (register = operand) and N from bit 7 of the wrapped difference,
and nothing else. -/
def Obligations.Compares : Prop :=
  ∀ (s : State) (d8 : Byte) (addr : Word),
    (∀ f ∈ Forms.cmp d8 addr, exec f.1 s = .next { s with
      p := Forms.compared s.p s.a (f.2.value s).1, bus := (f.2.value s).2.bus, out := (f.2.value s).2.out }) ∧
    (∀ f ∈ Forms.cpx d8 addr, exec f.1 s = .next { s with
      p := Forms.compared s.p s.x (f.2.value s).1, bus := (f.2.value s).2.bus, out := (f.2.value s).2.out }) ∧
    (∀ f ∈ Forms.cpy d8 addr, exec f.1 s = .next { s with
      p := Forms.compared s.p s.y (f.2.value s).1, bus := (f.2.value s).2.bus, out := (f.2.value s).2.out })

/-! ## Control flow -/

/-- R155 to R163: a branch sets PC to the resolved target when its flag has the value it tests, and else changes nothing; it is two bytes
long and returns 2 either way. -/
def Obligations.ConditionalBranches : Prop :=
  ∀ (s : State) (d8 : Byte),
    ∀ f ∈ [(Instr.bpl d8, s.p.n, false), (.bmi d8, s.p.n, true), (.bvc d8, s.p.v, false), (.bvs d8, s.p.v, true),
      (.bcc d8, s.p.c, false), (.bcs d8, s.p.c, true), (.bne d8, s.p.z, false), (.beq d8, s.p.z, true)],
      exec f.1 s = .next (if f.2.1 = f.2.2 then { s with pc := branchTarget d8 s } else s) ∧
      f.1.mode = .rel ∧ f.1.length = 2 ∧ f.1.baseCycles = some 2

/-- R170, R103 (page wrap: decision D4): JMP absolute reads nothing at the target; JMP indirect takes the target's low byte at the pointer
and its high byte from the same page. -/
def Obligations.Jumps : Prop :=
  ∀ (s : State) (addr : Word),
    exec (.jmpAbs addr) s = .next { s with pc := addr } ∧
    (let second := BitVec.ofNat 16 (addr.toNat / 256 * 256 + (addr.toNat + 1) % 256)
     let lo := s.bus.read addr
     let hi := lo.2.read second
     exec (.jmpInd addr) s = .next { s with
       pc := BitVec.ofNat 16 (hi.1.toNat * 256 + lo.1.toNat), bus := hi.2,
       out := Forms.also s.out [.read addr lo.1, .read second hi.1] })

/-- R56, R57: `Push` writes at the old S and then decrements it, `Pull` increments S and then reads at the new S; both wrap in 8 bits and
address the stack page (R23). -/
def Obligations.PushAndPull : Prop :=
  ∀ (s : State) (v : Byte),
    (let at0 := BitVec.ofNat 16 (256 + s.sp.toNat)
     s.push v = { s with
       sp := BitVec.ofNat 8 ((s.sp.toNat + 255) % 256), bus := s.bus.write at0 v,
       out := Forms.also s.out [.write at0 v] }) ∧
    (let at1 := BitVec.ofNat 16 (256 + (s.sp.toNat + 1) % 256)
     let r := s.bus.read at1
     s.pull = (r.1, { s with
       sp := BitVec.ofNat 8 ((s.sp.toNat + 1) % 256), bus := r.2, out := Forms.also s.out [.read at1 r.1] }))

/-- R171: JSR pushes the address of its own last byte, high byte then low byte, and jumps; afterwards, where the two stack locations are
plain RAM, the low byte is at `{0x01, S+1}` and the high byte at `{0x01, S+2}`. -/
def Obligations.JsrPushesReturnAddress : Prop :=
  ∀ (s : State) (addr : Word),
    let ret := s.pc - 1
    ∃ t, exec (.jsr addr) s = .next t ∧
      t = { s with
        pc := addr, sp := s.sp - 2,
        bus := (s.bus.write (stackAddr s.sp) (highByte ret)).write (stackAddr (s.sp - 1)) (lowByte ret),
        out := Forms.also s.out [.write (stackAddr s.sp) (highByte ret), .write (stackAddr (s.sp - 1)) (lowByte ret)] } ∧
      (Forms.plainRam s.bus (Forms.stackBelow s 2) →
        t.bus.peek (stackAddr (t.sp + 1)) = lowByte ret ∧ t.bus.peek (stackAddr (t.sp + 2)) = highByte ret)

/-- R172: RTS pulls the low byte, then the high byte, and adds 1; nothing is written and the flags stay. -/
def Obligations.RtsPullsReturnAddress : Prop :=
  ∀ s : State,
    let lo := s.bus.read (stackAddr (s.sp + 1))
    let hi := lo.2.read (stackAddr (s.sp + 2))
    exec .rts s = .next { s with
      pc := BitVec.ofNat 16 ((hi.1.toNat * 256 + lo.1.toNat + 1) % 65536), sp := s.sp + 2, bus := hi.2,
      out := Forms.also s.out [.read (stackAddr (s.sp + 1)) lo.1, .read (stackAddr (s.sp + 2)) hi.1] }

/-- R173, R172: whatever a subroutine does and whatever the bus is, if it leaves S as JSR left it and the bus gives RTS's two pulls the two
bytes JSR pushed, RTS returns to the instruction after the JSR with S as it was before.  Plain RAM at the two locations gives them, if
the subroutine leaves those bytes. -/
def Obligations.RtsReturnsAfterJsr : Prop :=
  ∀ (s t r : State) (addr : Word), exec (.jsr addr) s = .next t → r.sp = t.sp →
    Forms.pullsBack r [lowByte (s.pc - 1), highByte (s.pc - 1)] ∨ Forms.stackLeft s t r 2 →
    ∃ u, exec .rts r = .next u ∧ u.pc = s.pc ∧ u.sp = s.sp

/-! ## Flags -/

/-- R179 to R186: each sets or clears exactly one named flag; no other state changes. -/
def Obligations.FlagInstructions : Prop :=
  ∀ s : State,
    exec .clc s = .next { s with p := { s.p with c := false } } ∧
    exec .sec s = .next { s with p := { s.p with c := true } } ∧
    exec .cli s = .next { s with p := { s.p with i := false } } ∧
    exec .sei s = .next { s with p := { s.p with i := true } } ∧
    exec .clv s = .next { s with p := { s.p with v := false } } ∧
    exec .cld s = .next { s with p := { s.p with d := false } } ∧
    exec .sed s = .next { s with p := { s.p with d := true } }

/-- R31: N is bit 7, Z is equality with zero, nothing else is written, and the two are never both 1. -/
def Obligations.SetNZDerivesFlags : Prop :=
  ∀ (p : Status) (v : Byte), p.setNZ v = Forms.withNZ p v ∧ ((p.setNZ v).n && (p.setNZ v).z) = false

/-- R32: every bit of the packed status byte.  R33 (bits 5 and 4 ignored: decision D10): unpacking writes six flags from their bits and
leaves P.B, so unpacking a packed status restores the six. -/
def Obligations.PackAndUnpackStatus : Prop :=
  (∀ p : Status,
    p.pack.toNat = 128 * p.n.toNat + 64 * p.v.toNat + 32 + 16 * p.b.toNat + 8 * p.d.toNat + 4 * p.i.toNat + 2 * p.z.toNat +
      p.c.toNat) ∧
  (∀ (p : Status) (b : Byte), p.unpack b =
    { n := b.getLsbD 7, v := b.getLsbD 6, b := p.b, d := b.getLsbD 3, i := b.getLsbD 2, z := b.getLsbD 1, c := b.getLsbD 0 }) ∧
  ∀ p q : Status, q.unpack p.pack = { p with b := q.b }

/-! ## The bus -/

/-- R50, R51, R61, R67 (the bus open: decision D16; its form: log 12): every read and every write of every bus is answered.  A read
changes the devices at most, and nothing where memory answers; a write changes one RAM cell, or the devices, or in ROM nothing.  A
later read gives the byte written exactly where both addresses reach one RAM cell, mirrors among them.  At a device address the
bus does what the uninterpreted devices do, and one window over the address space makes every address one.  Without a window the bus
is flat RAM, D16's reference instance. -/
def Obligations.BusAnswersByPlace : Prop :=
  ∀ (b : Bus) (a c : Word) (v : Byte),
    ((b.read a).2.map = b.map ∧ (b.read a).2.mem = b.mem ∧ (b.write a v).map = b.map) ∧
    ((b.place a).kind ≠ .device → (b.read a).2 = b) ∧
    ((b.place a).kind = .ram ∨ (b.place a).kind = .rom → (b.write a v).devices = b.devices) ∧
    ((b.place c).kind ≠ .device → (b.write a v).peek c =
      if (b.place a).kind = .ram ∧ (b.place a).cell = (b.place c).cell then v else b.peek c) ∧
    ((b.place a).kind = .device →
      (let r := Config.deviceRead b.devices a
       b.read a = (r.1, { b with devices := r.2 })) ∧
      b.write a v = { b with devices := Config.deviceWrite b.devices a v }) ∧
    (∀ w rest, b.map = w :: rest → w.kind = .device → 65536 ≤ w.size → (b.place a).kind = .device) ∧
    (b.map = [] → (b.write a v).peek c = if c = a then v else b.peek c)

/-! ## Arithmetic, logic, shifts -/

/-- R190, R191 (binary whatever P.D: decision D8): A becomes A + v + C modulo 256; C is unsigned overflow; V is 1 exactly when the signed
sum is outside -128 to 127; N and Z from the result. -/
def Obligations.AdcIsBinaryAddition : Prop :=
  ∀ (s : State) (d8 : Byte) (addr : Word), ∀ f ∈ Forms.adc d8 addr,
    let v := (f.2.value s).1
    let sum := s.a.toNat + v.toNat + s.p.c.toNat
    let signed := s.a.toInt + v.toInt + s.p.c.toNat
    let r := BitVec.ofNat 8 (sum % 256)
    exec f.1 s = .next { s with
      a := r,
      p := { Forms.withNZ s.p r with c := decide (255 < sum), v := decide (signed < -128 ∨ 127 < signed) },
      bus := (f.2.value s).2.bus, out := (f.2.value s).2.out }

/-- R192 (binary whatever P.D: decision D8): A becomes A - v - (1 - C) modulo 256; C is 1 exactly when no borrow was needed; V is 1 exactly
when the signed difference is outside -128 to 127; N and Z from the result. -/
def Obligations.SbcIsBinarySubtraction : Prop :=
  ∀ (s : State) (d8 : Byte) (addr : Word), ∀ f ∈ Forms.sbc d8 addr,
    let v := (f.2.value s).1
    let borrow := 1 - s.p.c.toNat
    let signed := s.a.toInt - v.toInt - borrow
    let r := BitVec.ofNat 8 ((s.a.toNat + 512 - v.toNat - borrow) % 256)
    exec f.1 s = .next { s with
      a := r,
      p := { Forms.withNZ s.p r with
        c := decide (v.toNat + borrow ≤ s.a.toNat), v := decide (signed < -128 ∨ 127 < signed) },
      bus := (f.2.value s).2.bus, out := (f.2.value s).2.out }

/-- A corner case of R192: with C set, SBC and CMP of the same operand write the same C, Z and N. -/
def Obligations.SbcAfterSecAgreesWithCmp : Prop :=
  ∀ (s t u : State) (d8 : Byte) (addr : Word),
    ∀ f ∈ (Forms.sbc d8 addr).zip (Forms.cmp d8 addr), s.p.c = true → exec f.1.1 s = .next t → exec f.2.1 s = .next u →
      t.p.c = u.p.c ∧ t.p.z = u.p.z ∧ t.p.n = u.p.n

/-- R193 to R195: A becomes the bitwise and, or, exclusive or of A and the operand; N and Z from it; C and V stay. -/
def Obligations.LogicOperations : Prop :=
  ∀ (s : State) (d8 : Byte) (addr : Word),
    (∀ f ∈ Forms.and d8 addr, exec f.1 s = .next { s with
      a := s.a &&& (f.2.value s).1, p := Forms.withNZ s.p (s.a &&& (f.2.value s).1), bus := (f.2.value s).2.bus, out := (f.2.value s).2.out }) ∧
    (∀ f ∈ Forms.ora d8 addr, exec f.1 s = .next { s with
      a := s.a ||| (f.2.value s).1, p := Forms.withNZ s.p (s.a ||| (f.2.value s).1), bus := (f.2.value s).2.bus, out := (f.2.value s).2.out }) ∧
    (∀ f ∈ Forms.eor d8 addr, exec f.1 s = .next { s with
      a := s.a ^^^ (f.2.value s).1, p := Forms.withNZ s.p (s.a ^^^ (f.2.value s).1), bus := (f.2.value s).2.bus, out := (f.2.value s).2.out })

/-- R196: Z from the and, N and V from bits 7 and 6 of the memory byte itself; A stays, and the byte is read once. -/
def Obligations.BitTest : Prop :=
  ∀ (s : State) (d8 : Byte) (addr : Word), ∀ f ∈ Forms.bit d8 addr,
    let ea := f.2.resolve s
    let r := ea.2.bus.read ea.1
    let v := r.1
    exec f.1 s = .next { s with
      p := { s.p with z := decide (s.a &&& v = 0), n := decide (128 ≤ v.toNat), v := decide (64 ≤ v.toNat % 128) },
      bus := r.2, out := Forms.also ea.2.out [.read ea.1 v] }

/-- R197 to R201 (the functions and carries of R198 to R201 are the spec's general knowledge, U3): the shifted byte, in arithmetic, and the carry; the byte comes from A or from the effective address and goes back there,
with one read and then one write in memory; N and Z from the result, V stays. -/
def Obligations.ShiftsAndRotates : Prop :=
  ∀ (s : State) (d8 : Byte) (addr : Word),
    (∀ f ∈ Forms.shift .aslAcc (Forms.aslMem d8 addr), exec f.1 s = .next
      (Forms.shifted s f.2 (fun v => 2 * v.toNat % 256) (fun v => decide (128 ≤ v.toNat)))) ∧
    (∀ f ∈ Forms.shift .lsrAcc (Forms.lsrMem d8 addr), exec f.1 s = .next
      (Forms.shifted s f.2 (fun v => v.toNat / 2) (fun v => decide (v.toNat % 2 = 1)))) ∧
    (∀ f ∈ Forms.shift .rolAcc (Forms.rolMem d8 addr), exec f.1 s = .next
      (Forms.shifted s f.2 (fun v => (2 * v.toNat + s.p.c.toNat) % 256) (fun v => decide (128 ≤ v.toNat)))) ∧
    (∀ f ∈ Forms.shift .rorAcc (Forms.rorMem d8 addr), exec f.1 s = .next
      (Forms.shifted s f.2 (fun v => v.toNat / 2 + 128 * s.p.c.toNat) (fun v => decide (v.toNat % 2 = 1))))

/-! ## Stack and system -/

/-- R210, R211: PHA pushes A and writes no flag; PLA pulls A and sets N and Z from it. -/
def Obligations.PushAndPullAccumulator : Prop :=
  ∀ s : State,
    exec .pha s = .next { s with
      sp := s.sp - 1, bus := s.bus.write (stackAddr s.sp) s.a, out := Forms.also s.out [.write (stackAddr s.sp) s.a] } ∧
    (let r := s.bus.read (stackAddr (s.sp + 1))
     exec .pla s = .next { s with
       a := r.1, sp := s.sp + 1, p := Forms.withNZ s.p r.1, bus := r.2,
       out := Forms.also s.out [.read (stackAddr (s.sp + 1)) r.1] })

/-- R212, R213 (P.B not written: decision D10): PHP pushes the packed status; PLP writes six flags from the pulled byte. -/
def Obligations.PushAndPullStatus : Prop :=
  ∀ s : State,
    exec .php s = .next { s with
      sp := s.sp - 1, bus := s.bus.write (stackAddr s.sp) s.p.pack,
      out := Forms.also s.out [.write (stackAddr s.sp) s.p.pack] } ∧
    (let r := s.bus.read (stackAddr (s.sp + 1))
     let v := r.1
     exec .plp s = .next { s with
       sp := s.sp + 1,
       p := { n := v.getLsbD 7, v := v.getLsbD 6, b := s.p.b, d := v.getLsbD 3, i := v.getLsbD 2, z := v.getLsbD 1,
              c := v.getLsbD 0 },
       bus := r.2, out := Forms.also s.out [.read (stackAddr (s.sp + 1)) v] })

/-- R212, R213: whatever happens between and whatever the bus is, if S is as PHP left it and the bus gives PLP's pull the byte PHP pushed,
PLP restores the six flags and S.  Plain RAM at the location gives it, if the byte is left there. -/
def Obligations.PlpRestoresAfterPhp : Prop :=
  ∀ s t r : State, exec .php s = .next t → r.sp = t.sp →
    Forms.pullsBack r [s.p.pack] ∨ Forms.stackLeft s t r 1 →
    ∃ u, exec .plp r = .next u ∧ u.p = { s.p with b := r.p.b } ∧ u.sp = s.sp

/-- R214, R238 (vector: decision D15): BRK pushes the address of its opcode plus 2 and the packed status with the old I, then sets I, then
loads PC from 0xFFFE and 0xFFFF, read after the pushes; no other flag and no other register is written. -/
def Obligations.BrkTakesTheTrap : Prop :=
  ∀ s : State,
    let ret := s.pc + 1
    let pushed := ((s.bus.write (stackAddr s.sp) (highByte ret)).write (stackAddr (s.sp - 1)) (lowByte ret)).write
      (stackAddr (s.sp - 2)) s.p.pack
    let lo := pushed.read 0xFFFE
    let hi := lo.2.read 0xFFFF
    exec .brk s = .next { s with
      pc := joinBytes hi.1 lo.1, sp := s.sp - 3, p := { s.p with i := true }, bus := hi.2,
      out := Forms.also s.out
        [.write (stackAddr s.sp) (highByte ret), .write (stackAddr (s.sp - 1)) (lowByte ret),
         .write (stackAddr (s.sp - 2)) s.p.pack, .read 0xFFFE lo.1, .read 0xFFFF hi.1] }

/-- R215, R239: RTI pulls the status byte, six flags of it, then PC, low byte first, and adds nothing; A, X, Y and P.B stay and nothing is
written. -/
def Obligations.RtiReturnsFromTrap : Prop :=
  ∀ s : State,
    let st := s.bus.read (stackAddr (s.sp + 1))
    let lo := st.2.read (stackAddr (s.sp + 2))
    let hi := lo.2.read (stackAddr (s.sp + 3))
    let b := st.1
    exec .rti s = .next { s with
      pc := joinBytes hi.1 lo.1, sp := s.sp + 3,
      p := { n := b.getLsbD 7, v := b.getLsbD 6, b := s.p.b, d := b.getLsbD 3, i := b.getLsbD 2, z := b.getLsbD 1,
             c := b.getLsbD 0 },
      bus := hi.2,
      out := Forms.also s.out [.read (stackAddr (s.sp + 1)) b, .read (stackAddr (s.sp + 2)) lo.1,
        .read (stackAddr (s.sp + 3)) hi.1] }

/-- R214, R215, R239: whatever a handler does and whatever the bus is, if it leaves S as BRK left it and the bus gives RTI's three pulls the
three bytes BRK pushed, RTI resumes at the BRK's opcode address plus 2, with S and the six flags, I among them, as before the BRK.
Plain RAM at the three locations gives them, if the handler leaves those bytes. -/
def Obligations.RtiResumesAfterBrk : Prop :=
  ∀ s t r : State, exec .brk s = .next t → r.sp = t.sp →
    Forms.pullsBack r [s.p.pack, lowByte (s.pc + 1), highByte (s.pc + 1)] ∨ Forms.stackLeft s t r 3 →
    ∃ u, exec .rti r = .next u ∧ u.pc = s.pc + 1 ∧ u.sp = s.sp ∧ u.p = { s.p with b := r.p.b }

/-- R216: NOP changes nothing. -/
def Obligations.NopDoesNothing : Prop := ∀ s : State, exec .nop s = .next s

/-- R236 (general knowledge; a host's move, not a step: log 9): an emulated NMI, and an IRQ when P.I is 0, push PC and the packed status
with bit 4 clear, set P.I and load PC from the vector; an IRQ when P.I is 1 does nothing. -/
def Obligations.HostInterruptsEnterHandler : Prop :=
  ∀ s : State, (s.p.i = true → s.hostIrq = s) ∧
    ∀ q ∈ [(s.hostNmi, (0xFFFA : Word))] ++ (if s.p.i then [] else [(s.hostIrq, 0xFFFE)]),
      let pushed := ((s.bus.write (stackAddr s.sp) (highByte s.pc)).write (stackAddr (s.sp - 1)) (lowByte s.pc)).write
        (stackAddr (s.sp - 2)) (s.p.pack &&& 0b11101111)
      let lo := pushed.read q.2
      let hi := lo.2.read (q.2 + 1)
      q.1.p = { s.p with i := true } ∧ q.1.sp = s.sp - 3 ∧ q.1.a = s.a ∧ q.1.x = s.x ∧ q.1.y = s.y ∧
      q.1.bus = hi.2 ∧ q.1.pc = joinBytes hi.1 lo.1
end

