-- ==== Sys2Proof/Laws/Memory.lean ====
section
/-! SUPPORT. The laws of memory: a read after a write, and that a write keeps the canonical form. -/

namespace Sys2Proof.Machine

@[simp] theorem Memory.read_nil (a : Word) : Memory.read [] a = Config.unlistedByte := rfl

theorem Memory.find_filter_ne {m : Memory} {a b : Nat} (h : b ≠ a) :
    Memory.find (m.filter (fun c => c.1 ≠ a)) b = m.find b := by
  induction m with
  | nil => rfl
  | cons c m ih =>
    by_cases hc : c.1 = a
    · have hb : ¬ c.1 = b := fun e => h (e.symm.trans hc)
      simp only [List.filter_cons, hc, ne_eq, not_true_eq_false, decide_false, Bool.false_eq_true, if_false, Memory.find]
      rw [if_neg (hc ▸ hb)]; exact ih
    · simp only [List.filter_cons, ne_eq, hc, not_false_eq_true, decide_true, if_true, Memory.find]
      rw [ih]

theorem Memory.find_of_not_listed {m : Memory} {a : Nat} (h : ∀ c ∈ m, c.1 ≠ a) :
    m.find a = Config.unlistedByte := by
  induction m with
  | nil => rfl
  | cons c m ih =>
    simp only [Memory.find, if_neg (h c (by simp))]
    exact ih fun d hd => h d (by simp [hd])

theorem Memory.find_insert {m : Memory} {c : Host.Cell} (h : ∀ d ∈ m, d.1 ≠ c.1) (b : Nat) :
    (Memory.insert m c).find b = if c.1 = b then c.2 else m.find b := by
  induction m with
  | nil => rfl
  | cons d m ih =>
    have hd : d.1 ≠ c.1 := h d (by simp)
    simp only [Memory.insert]
    split
    · rfl
    · simp only [Memory.find, ih fun e he => h e (by simp [he])]
      by_cases hb : d.1 = b
      · have : ¬ c.1 = b := fun e => hd (hb.trans e.symm)
        simp [hb, this]
      · simp [hb]

theorem Memory.not_listed_filter (m : Memory) (a : Nat) : ∀ c ∈ m.filter (fun c => c.1 ≠ a), c.1 ≠ a := by
  intro c hc
  simpa using (List.mem_filter.mp hc).2

/-- Reading the address just written gives the byte written (R62). -/
@[simp] theorem Memory.read_write_same (m : Memory) (a : Word) (v : Byte) : (m.write a v).read a = v := by
  unfold Memory.write Memory.read
  split
  · rw [Memory.find_of_not_listed (Memory.not_listed_filter m a.toNat)]; exact Eq.symm ‹_›
  · rw [Memory.find_insert (Memory.not_listed_filter m a.toNat)]; simp

/-- A write leaves every other address as it was. -/
theorem Memory.read_write_other (m : Memory) {a b : Word} (v : Byte) (h : b ≠ a) :
    (m.write a v).read b = m.read b := by
  have hn : b.toNat ≠ a.toNat := fun e => h (BitVec.eq_of_toNat_eq e)
  unfold Memory.write Memory.read
  split
  · exact Memory.find_filter_ne hn
  · rw [Memory.find_insert (Memory.not_listed_filter m a.toNat), if_neg (Ne.symm hn)]
    exact Memory.find_filter_ne hn

/-- The two cases of a read after a write in one equation. -/
theorem Memory.read_write (m : Memory) (a b : Word) (v : Byte) :
    (m.write a v).read b = if b = a then v else m.read b := by
  split
  · next h => rw [h, Memory.read_write_same]
  · next h => exact Memory.read_write_other m v h

theorem Memory.mem_insert {m : Memory} {c d : Host.Cell} (h : d ∈ Memory.insert m c) : d = c ∨ d ∈ m := by
  induction m with
  | nil => exact .inl (by simpa [Memory.insert] using h)
  | cons e m ih =>
    simp only [Memory.insert] at h
    split at h
    · simpa using h
    · rcases List.mem_cons.mp h with h | h
      · simp [h]
      · rcases ih h with h | h <;> simp [h]

theorem Memory.pairwise_insert {m : Memory} {c : Host.Cell} (hm : m.Pairwise (fun c d => c.1 < d.1))
    (h : ∀ d ∈ m, d.1 ≠ c.1) : (Memory.insert m c).Pairwise (fun c d => c.1 < d.1) := by
  induction m with
  | nil => simp [Memory.insert]
  | cons e m ih =>
    have he := List.pairwise_cons.mp hm
    simp only [Memory.insert]
    split
    · next hlt =>
      refine List.pairwise_cons.mpr ⟨fun d hd => ?_, hm⟩
      rcases List.mem_cons.mp hd with hd | hd
      · rw [hd]; exact hlt
      · exact Nat.lt_trans hlt (he.1 d hd)
    · next hlt =>
      have hne : e.1 ≠ c.1 := h e (by simp)
      refine List.pairwise_cons.mpr ⟨fun d hd => ?_, ih he.2 fun d hd => h d (by simp [hd])⟩
      rcases Memory.mem_insert hd with hd | hd
      · rw [hd]; omega
      · exact he.1 d hd

/-- Every write keeps the canonical form. -/
theorem Memory.wf_write {m : Memory} (h : m.wf) (a : Word) (v : Byte) : (m.write a v).wf := by
  have hf : (m.filter (fun c => c.1 ≠ a.toNat)).Pairwise (fun c d => c.1 < d.1) := h.1.filter _
  have hc : ∀ c ∈ m.filter (fun c => c.1 ≠ a.toNat), c.1 < 65536 ∧ c.2 ≠ Config.unlistedByte :=
    fun c hc => h.2 c (List.mem_filter.mp hc).1
  unfold Memory.write
  split
  · exact ⟨hf, hc⟩
  · next hv =>
    refine ⟨Memory.pairwise_insert hf (Memory.not_listed_filter m a.toNat), fun c hcm => ?_⟩
    rcases Memory.mem_insert hcm with rfl | hcm
    · exact ⟨a.isLt, hv⟩
    · exact hc c hcm

/-- The empty memory has the canonical form. -/
theorem Memory.wf_nil : Memory.wf [] := by decide

end Sys2Proof.Machine
end

