-- ==== Sys2Proof/Laws/Bus.lean ====
section
/-! SUPPORT. What a bus access can do: a read changes the devices at most, a write one memory cell or the devices, neither the map;
and what a later read of any address that memory answers then gives. -/

namespace Sys2Proof.Machine

namespace Bus

/-- Every read, in one form: the byte, and a bus that differs in the devices at most. -/
theorem read_eq (b : Bus) (a : Word) : b.read a = (b.peek a, { b with devices := (b.read a).2.devices }) := by
  unfold peek read
  split <;> rfl

variable (b : Bus) (a c : Word) (v : Byte)

@[simp] theorem read_value : (b.read a).1 = b.peek a := rfl

@[simp] theorem read_map : (b.read a).2.map = b.map := by rw [read_eq]

@[simp] theorem read_mem : (b.read a).2.mem = b.mem := by rw [read_eq]

@[simp] theorem write_map : (b.write a v).map = b.map := by unfold write; split <;> rfl

/-- What an address reaches depends on the map alone. -/
theorem place_congr {b d : Bus} (h : b.map = d.map) (a : Word) : b.place a = d.place a := by
  unfold place; rw [h]

@[simp] theorem read_place : (b.read a).2.place c = b.place c := place_congr (read_map b a) c

@[simp] theorem write_place : (b.write a v).place c = b.place c := place_congr (write_map b a v) c

/-- The byte at an address that memory answers. -/
theorem peek_memory {b : Bus} {a : Word} (h : (b.place a).kind ≠ .device) : b.peek a = b.mem.read (b.place a).cell := by
  unfold peek read
  split <;> simp_all

/-- A read of an address that memory answers changes nothing. -/
theorem read_memory {b : Bus} {a : Word} (h : (b.place a).kind ≠ .device) : b.read a = (b.peek a, b) := by
  unfold peek read
  split <;> simp_all

/-- A read leaves every byte that memory answers. -/
@[simp] theorem peek_read (h : (b.place c).kind ≠ .device) : (b.read a).2.peek c = b.peek c := by
  rw [peek_memory (by simpa using h), peek_memory h, read_place, read_mem]

theorem write_mem : (b.write a v).mem = if (b.place a).kind = .ram then b.mem.write (b.place a).cell v else b.mem := by
  unfold write
  split <;> simp_all

/-- A read after a write, at any address that memory answers: the byte written where both addresses reach one RAM cell, else the
byte as before. -/
theorem peek_write (h : (b.place c).kind ≠ .device) :
    (b.write a v).peek c =
      if (b.place a).kind = .ram ∧ (b.place c).cell = (b.place a).cell then v else b.peek c := by
  rw [peek_memory (by simpa using h), peek_memory h, write_place, write_mem]
  split
  · rw [Memory.read_write]; simp_all
  · simp_all

/-- A RAM address reads the byte just written to it (R62). -/
@[simp] theorem peek_write_same {b : Bus} {a : Word} (h : (b.place a).kind = .ram) (v : Byte) :
    (b.write a v).peek a = v := by
  rw [peek_write _ _ _ _ (by simp [h]), if_pos ⟨h, rfl⟩]

/-- Every access keeps the canonical form of the memory. -/
theorem wf_read {b : Bus} (h : b.mem.wf) (a : Word) : (b.read a).2.mem.wf := by rwa [read_mem]

theorem wf_write {b : Bus} (h : b.mem.wf) (a : Word) (v : Byte) : (b.write a v).mem.wf := by
  rw [write_mem]
  split
  · exact Memory.wf_write h _ v
  · exact h

/-! The reference instance, flat RAM (92 D16). -/

theorem place_flat {b : Bus} (h : b.map = []) (a : Word) : b.place a = { kind := .ram, cell := a } := by
  unfold place; rw [h]; rfl

theorem read_flat {b : Bus} (h : b.map = []) (a : Word) : b.read a = (b.mem.read a, b) := by
  rw [read_memory (by simp [place_flat h]), peek_memory (by simp [place_flat h]), place_flat h]

theorem write_flat {b : Bus} (h : b.map = []) (a : Word) (v : Byte) : b.write a v = { b with mem := b.mem.write a v } := by
  unfold write; simp only [place_flat h]

/-! The bus a table word is placed on. -/

/-- Its three addresses are plain RAM, each at its own cell. -/
theorem withRamAt_place (b : Bus) (a : Word) {c : Word} (h : c ∈ [a, a + 1, a + 2]) :
    (b.withRamAt a).place c = { kind := .ram, cell := c } := by
  unfold withRamAt
  split
  · next hall => exact eq_of_beq (List.all_eq_true.mp hall c h)
  · have hc : (c - a).toNat < 3 := by
      simp only [List.mem_cons, List.not_mem_nil, or_false] at h
      rcases h with rfl | rfl | rfl <;> bv_omega
    have hw : Window.holds { base := a, size := 3, kind := .ram, target := a, period := 0 } c = true := decide_eq_true hc
    have hs : a + (c - a) = c := by bv_omega
    simp only [place, List.find?_cons, hw, Window.cellOf, Nat.mod_zero, BitVec.ofNat_toNat, BitVec.setWidth_eq, hs]

end Bus

end Sys2Proof.Machine
end

