-- ==== Sys2Proof/Laws/Decode.lean ====
section
/-! SUPPORT. The opcode table entry by entry: each opcode byte is the first byte of what its entry makes (30_encoding R73 to R77), and
one equation of the decoder per kind of entry. -/

namespace Sys2Proof

/-- An instruction of an official row: well formed, with a mnemonic, a mode and a base cycle count. -/
structure Instr.Official (i : Instr) : Prop where
  wf : i.wf = true
  mnemonic : i.mnemonic ≠ .UNIMPL
  mode : i.mode ≠ .none
  cycles : i.baseCycles.isSome = true

/-- What an entry says of the opcode byte it stands at. -/
def Entry.Fits (opcode : Byte) : Entry → Prop
  | .f1 i => encode i = [opcode] ∧ i.length = 1 ∧ i.Official
  | .f2 make => ∀ d8, encode (make d8) = [opcode, d8] ∧ (make d8).length = 2 ∧ (make d8).Official ∧
      (make d8).mnemonic = (make 0).mnemonic ∧ (make d8).mode = (make 0).mode
  | .f3 make => ∀ addr, encode (make addr) = [opcode, lowByte addr, highByte addr] ∧ (make addr).length = 3 ∧
      (make addr).Official ∧ (make addr).mnemonic = (make 0).mnemonic ∧ (make addr).mode = (make 0).mode
  | .unimpl => unimplementedBytes.contains opcode = true

/-- Entries that fit the opcode bytes from `k` on. -/
def Entry.AllFit : Nat → List Entry → Prop
  | _, [] => True
  | k, e :: es => e.Fits (BitVec.ofNat 8 k) ∧ Entry.AllFit (k + 1) es

/-- Whether an entry is the unimplemented marker. -/
def Entry.isMarker : Entry → Bool
  | .unimpl => true
  | _ => false

namespace Entry

theorem row0_fits : AllFit 0x00 opcodeRow0 :=
  ⟨⟨rfl, rfl, ⟨rfl, nofun, nofun, rfl⟩⟩, fun _ => ⟨rfl, rfl, ⟨rfl, nofun, nofun, rfl⟩, rfl, rfl⟩, rfl, rfl, rfl,
   fun _ => ⟨rfl, rfl, ⟨rfl, nofun, nofun, rfl⟩, rfl, rfl⟩, fun _ => ⟨rfl, rfl, ⟨rfl, nofun, nofun, rfl⟩, rfl, rfl⟩, rfl,
   ⟨rfl, rfl, ⟨rfl, nofun, nofun, rfl⟩⟩, fun _ => ⟨rfl, rfl, ⟨rfl, nofun, nofun, rfl⟩, rfl, rfl⟩,
   ⟨rfl, rfl, ⟨rfl, nofun, nofun, rfl⟩⟩, rfl, rfl, fun _ => ⟨rfl, rfl, ⟨rfl, nofun, nofun, rfl⟩, rfl, rfl⟩,
   fun _ => ⟨rfl, rfl, ⟨rfl, nofun, nofun, rfl⟩, rfl, rfl⟩, rfl, trivial⟩

theorem row1_fits : AllFit 0x10 opcodeRow1 :=
  ⟨fun _ => ⟨rfl, rfl, ⟨rfl, nofun, nofun, rfl⟩, rfl, rfl⟩, fun _ => ⟨rfl, rfl, ⟨rfl, nofun, nofun, rfl⟩, rfl, rfl⟩, rfl, rfl,
   rfl, fun _ => ⟨rfl, rfl, ⟨rfl, nofun, nofun, rfl⟩, rfl, rfl⟩, fun _ => ⟨rfl, rfl, ⟨rfl, nofun, nofun, rfl⟩, rfl, rfl⟩, rfl,
   ⟨rfl, rfl, ⟨rfl, nofun, nofun, rfl⟩⟩, fun _ => ⟨rfl, rfl, ⟨rfl, nofun, nofun, rfl⟩, rfl, rfl⟩, rfl, rfl, rfl,
   fun _ => ⟨rfl, rfl, ⟨rfl, nofun, nofun, rfl⟩, rfl, rfl⟩, fun _ => ⟨rfl, rfl, ⟨rfl, nofun, nofun, rfl⟩, rfl, rfl⟩, rfl, trivial⟩

theorem row2_fits : AllFit 0x20 opcodeRow2 :=
  ⟨fun _ => ⟨rfl, rfl, ⟨rfl, nofun, nofun, rfl⟩, rfl, rfl⟩, fun _ => ⟨rfl, rfl, ⟨rfl, nofun, nofun, rfl⟩, rfl, rfl⟩, rfl, rfl,
   fun _ => ⟨rfl, rfl, ⟨rfl, nofun, nofun, rfl⟩, rfl, rfl⟩, fun _ => ⟨rfl, rfl, ⟨rfl, nofun, nofun, rfl⟩, rfl, rfl⟩,
   fun _ => ⟨rfl, rfl, ⟨rfl, nofun, nofun, rfl⟩, rfl, rfl⟩, rfl, ⟨rfl, rfl, ⟨rfl, nofun, nofun, rfl⟩⟩,
   fun _ => ⟨rfl, rfl, ⟨rfl, nofun, nofun, rfl⟩, rfl, rfl⟩, ⟨rfl, rfl, ⟨rfl, nofun, nofun, rfl⟩⟩, rfl,
   fun _ => ⟨rfl, rfl, ⟨rfl, nofun, nofun, rfl⟩, rfl, rfl⟩, fun _ => ⟨rfl, rfl, ⟨rfl, nofun, nofun, rfl⟩, rfl, rfl⟩,
   fun _ => ⟨rfl, rfl, ⟨rfl, nofun, nofun, rfl⟩, rfl, rfl⟩, rfl, trivial⟩

theorem row3_fits : AllFit 0x30 opcodeRow3 :=
  ⟨fun _ => ⟨rfl, rfl, ⟨rfl, nofun, nofun, rfl⟩, rfl, rfl⟩, fun _ => ⟨rfl, rfl, ⟨rfl, nofun, nofun, rfl⟩, rfl, rfl⟩, rfl, rfl,
   rfl, fun _ => ⟨rfl, rfl, ⟨rfl, nofun, nofun, rfl⟩, rfl, rfl⟩, fun _ => ⟨rfl, rfl, ⟨rfl, nofun, nofun, rfl⟩, rfl, rfl⟩, rfl,
   ⟨rfl, rfl, ⟨rfl, nofun, nofun, rfl⟩⟩, fun _ => ⟨rfl, rfl, ⟨rfl, nofun, nofun, rfl⟩, rfl, rfl⟩, rfl, rfl, rfl,
   fun _ => ⟨rfl, rfl, ⟨rfl, nofun, nofun, rfl⟩, rfl, rfl⟩, fun _ => ⟨rfl, rfl, ⟨rfl, nofun, nofun, rfl⟩, rfl, rfl⟩, rfl, trivial⟩

theorem row4_fits : AllFit 0x40 opcodeRow4 :=
  ⟨⟨rfl, rfl, ⟨rfl, nofun, nofun, rfl⟩⟩, fun _ => ⟨rfl, rfl, ⟨rfl, nofun, nofun, rfl⟩, rfl, rfl⟩, rfl, rfl, rfl,
   fun _ => ⟨rfl, rfl, ⟨rfl, nofun, nofun, rfl⟩, rfl, rfl⟩, fun _ => ⟨rfl, rfl, ⟨rfl, nofun, nofun, rfl⟩, rfl, rfl⟩, rfl,
   ⟨rfl, rfl, ⟨rfl, nofun, nofun, rfl⟩⟩, fun _ => ⟨rfl, rfl, ⟨rfl, nofun, nofun, rfl⟩, rfl, rfl⟩,
   ⟨rfl, rfl, ⟨rfl, nofun, nofun, rfl⟩⟩, rfl, fun _ => ⟨rfl, rfl, ⟨rfl, nofun, nofun, rfl⟩, rfl, rfl⟩,
   fun _ => ⟨rfl, rfl, ⟨rfl, nofun, nofun, rfl⟩, rfl, rfl⟩, fun _ => ⟨rfl, rfl, ⟨rfl, nofun, nofun, rfl⟩, rfl, rfl⟩, rfl, trivial⟩

theorem row5_fits : AllFit 0x50 opcodeRow5 :=
  ⟨fun _ => ⟨rfl, rfl, ⟨rfl, nofun, nofun, rfl⟩, rfl, rfl⟩, fun _ => ⟨rfl, rfl, ⟨rfl, nofun, nofun, rfl⟩, rfl, rfl⟩, rfl, rfl,
   rfl, fun _ => ⟨rfl, rfl, ⟨rfl, nofun, nofun, rfl⟩, rfl, rfl⟩, fun _ => ⟨rfl, rfl, ⟨rfl, nofun, nofun, rfl⟩, rfl, rfl⟩, rfl,
   ⟨rfl, rfl, ⟨rfl, nofun, nofun, rfl⟩⟩, fun _ => ⟨rfl, rfl, ⟨rfl, nofun, nofun, rfl⟩, rfl, rfl⟩, rfl, rfl, rfl,
   fun _ => ⟨rfl, rfl, ⟨rfl, nofun, nofun, rfl⟩, rfl, rfl⟩, fun _ => ⟨rfl, rfl, ⟨rfl, nofun, nofun, rfl⟩, rfl, rfl⟩, rfl, trivial⟩

theorem row6_fits : AllFit 0x60 opcodeRow6 :=
  ⟨⟨rfl, rfl, ⟨rfl, nofun, nofun, rfl⟩⟩, fun _ => ⟨rfl, rfl, ⟨rfl, nofun, nofun, rfl⟩, rfl, rfl⟩, rfl, rfl, rfl,
   fun _ => ⟨rfl, rfl, ⟨rfl, nofun, nofun, rfl⟩, rfl, rfl⟩, fun _ => ⟨rfl, rfl, ⟨rfl, nofun, nofun, rfl⟩, rfl, rfl⟩, rfl,
   ⟨rfl, rfl, ⟨rfl, nofun, nofun, rfl⟩⟩, fun _ => ⟨rfl, rfl, ⟨rfl, nofun, nofun, rfl⟩, rfl, rfl⟩,
   ⟨rfl, rfl, ⟨rfl, nofun, nofun, rfl⟩⟩, rfl, fun _ => ⟨rfl, rfl, ⟨rfl, nofun, nofun, rfl⟩, rfl, rfl⟩,
   fun _ => ⟨rfl, rfl, ⟨rfl, nofun, nofun, rfl⟩, rfl, rfl⟩, fun _ => ⟨rfl, rfl, ⟨rfl, nofun, nofun, rfl⟩, rfl, rfl⟩, rfl, trivial⟩

theorem row7_fits : AllFit 0x70 opcodeRow7 :=
  ⟨fun _ => ⟨rfl, rfl, ⟨rfl, nofun, nofun, rfl⟩, rfl, rfl⟩, fun _ => ⟨rfl, rfl, ⟨rfl, nofun, nofun, rfl⟩, rfl, rfl⟩, rfl, rfl,
   rfl, fun _ => ⟨rfl, rfl, ⟨rfl, nofun, nofun, rfl⟩, rfl, rfl⟩, fun _ => ⟨rfl, rfl, ⟨rfl, nofun, nofun, rfl⟩, rfl, rfl⟩, rfl,
   ⟨rfl, rfl, ⟨rfl, nofun, nofun, rfl⟩⟩, fun _ => ⟨rfl, rfl, ⟨rfl, nofun, nofun, rfl⟩, rfl, rfl⟩, rfl, rfl, rfl,
   fun _ => ⟨rfl, rfl, ⟨rfl, nofun, nofun, rfl⟩, rfl, rfl⟩, fun _ => ⟨rfl, rfl, ⟨rfl, nofun, nofun, rfl⟩, rfl, rfl⟩, rfl, trivial⟩

theorem row8_fits : AllFit 0x80 opcodeRow8 :=
  ⟨rfl, fun _ => ⟨rfl, rfl, ⟨rfl, nofun, nofun, rfl⟩, rfl, rfl⟩, rfl, rfl,
   fun _ => ⟨rfl, rfl, ⟨rfl, nofun, nofun, rfl⟩, rfl, rfl⟩, fun _ => ⟨rfl, rfl, ⟨rfl, nofun, nofun, rfl⟩, rfl, rfl⟩,
   fun _ => ⟨rfl, rfl, ⟨rfl, nofun, nofun, rfl⟩, rfl, rfl⟩, rfl, ⟨rfl, rfl, ⟨rfl, nofun, nofun, rfl⟩⟩, rfl,
   ⟨rfl, rfl, ⟨rfl, nofun, nofun, rfl⟩⟩, rfl, fun _ => ⟨rfl, rfl, ⟨rfl, nofun, nofun, rfl⟩, rfl, rfl⟩,
   fun _ => ⟨rfl, rfl, ⟨rfl, nofun, nofun, rfl⟩, rfl, rfl⟩, fun _ => ⟨rfl, rfl, ⟨rfl, nofun, nofun, rfl⟩, rfl, rfl⟩, rfl, trivial⟩

theorem row9_fits : AllFit 0x90 opcodeRow9 :=
  ⟨fun _ => ⟨rfl, rfl, ⟨rfl, nofun, nofun, rfl⟩, rfl, rfl⟩, fun _ => ⟨rfl, rfl, ⟨rfl, nofun, nofun, rfl⟩, rfl, rfl⟩, rfl, rfl,
   fun _ => ⟨rfl, rfl, ⟨rfl, nofun, nofun, rfl⟩, rfl, rfl⟩, fun _ => ⟨rfl, rfl, ⟨rfl, nofun, nofun, rfl⟩, rfl, rfl⟩,
   fun _ => ⟨rfl, rfl, ⟨rfl, nofun, nofun, rfl⟩, rfl, rfl⟩, rfl, ⟨rfl, rfl, ⟨rfl, nofun, nofun, rfl⟩⟩,
   fun _ => ⟨rfl, rfl, ⟨rfl, nofun, nofun, rfl⟩, rfl, rfl⟩, ⟨rfl, rfl, ⟨rfl, nofun, nofun, rfl⟩⟩, rfl, rfl,
   fun _ => ⟨rfl, rfl, ⟨rfl, nofun, nofun, rfl⟩, rfl, rfl⟩, rfl, rfl, trivial⟩

theorem rowA_fits : AllFit 0xA0 opcodeRowA :=
  ⟨fun _ => ⟨rfl, rfl, ⟨rfl, nofun, nofun, rfl⟩, rfl, rfl⟩, fun _ => ⟨rfl, rfl, ⟨rfl, nofun, nofun, rfl⟩, rfl, rfl⟩,
   fun _ => ⟨rfl, rfl, ⟨rfl, nofun, nofun, rfl⟩, rfl, rfl⟩, rfl, fun _ => ⟨rfl, rfl, ⟨rfl, nofun, nofun, rfl⟩, rfl, rfl⟩,
   fun _ => ⟨rfl, rfl, ⟨rfl, nofun, nofun, rfl⟩, rfl, rfl⟩, fun _ => ⟨rfl, rfl, ⟨rfl, nofun, nofun, rfl⟩, rfl, rfl⟩, rfl,
   ⟨rfl, rfl, ⟨rfl, nofun, nofun, rfl⟩⟩, fun _ => ⟨rfl, rfl, ⟨rfl, nofun, nofun, rfl⟩, rfl, rfl⟩,
   ⟨rfl, rfl, ⟨rfl, nofun, nofun, rfl⟩⟩, rfl, fun _ => ⟨rfl, rfl, ⟨rfl, nofun, nofun, rfl⟩, rfl, rfl⟩,
   fun _ => ⟨rfl, rfl, ⟨rfl, nofun, nofun, rfl⟩, rfl, rfl⟩, fun _ => ⟨rfl, rfl, ⟨rfl, nofun, nofun, rfl⟩, rfl, rfl⟩, rfl, trivial⟩

theorem rowB_fits : AllFit 0xB0 opcodeRowB :=
  ⟨fun _ => ⟨rfl, rfl, ⟨rfl, nofun, nofun, rfl⟩, rfl, rfl⟩, fun _ => ⟨rfl, rfl, ⟨rfl, nofun, nofun, rfl⟩, rfl, rfl⟩, rfl, rfl,
   fun _ => ⟨rfl, rfl, ⟨rfl, nofun, nofun, rfl⟩, rfl, rfl⟩, fun _ => ⟨rfl, rfl, ⟨rfl, nofun, nofun, rfl⟩, rfl, rfl⟩,
   fun _ => ⟨rfl, rfl, ⟨rfl, nofun, nofun, rfl⟩, rfl, rfl⟩, rfl, ⟨rfl, rfl, ⟨rfl, nofun, nofun, rfl⟩⟩,
   fun _ => ⟨rfl, rfl, ⟨rfl, nofun, nofun, rfl⟩, rfl, rfl⟩, ⟨rfl, rfl, ⟨rfl, nofun, nofun, rfl⟩⟩, rfl,
   fun _ => ⟨rfl, rfl, ⟨rfl, nofun, nofun, rfl⟩, rfl, rfl⟩, fun _ => ⟨rfl, rfl, ⟨rfl, nofun, nofun, rfl⟩, rfl, rfl⟩,
   fun _ => ⟨rfl, rfl, ⟨rfl, nofun, nofun, rfl⟩, rfl, rfl⟩, rfl, trivial⟩

theorem rowC_fits : AllFit 0xC0 opcodeRowC :=
  ⟨fun _ => ⟨rfl, rfl, ⟨rfl, nofun, nofun, rfl⟩, rfl, rfl⟩, fun _ => ⟨rfl, rfl, ⟨rfl, nofun, nofun, rfl⟩, rfl, rfl⟩, rfl, rfl,
   fun _ => ⟨rfl, rfl, ⟨rfl, nofun, nofun, rfl⟩, rfl, rfl⟩, fun _ => ⟨rfl, rfl, ⟨rfl, nofun, nofun, rfl⟩, rfl, rfl⟩,
   fun _ => ⟨rfl, rfl, ⟨rfl, nofun, nofun, rfl⟩, rfl, rfl⟩, rfl, ⟨rfl, rfl, ⟨rfl, nofun, nofun, rfl⟩⟩,
   fun _ => ⟨rfl, rfl, ⟨rfl, nofun, nofun, rfl⟩, rfl, rfl⟩, ⟨rfl, rfl, ⟨rfl, nofun, nofun, rfl⟩⟩, rfl,
   fun _ => ⟨rfl, rfl, ⟨rfl, nofun, nofun, rfl⟩, rfl, rfl⟩, fun _ => ⟨rfl, rfl, ⟨rfl, nofun, nofun, rfl⟩, rfl, rfl⟩,
   fun _ => ⟨rfl, rfl, ⟨rfl, nofun, nofun, rfl⟩, rfl, rfl⟩, rfl, trivial⟩

theorem rowD_fits : AllFit 0xD0 opcodeRowD :=
  ⟨fun _ => ⟨rfl, rfl, ⟨rfl, nofun, nofun, rfl⟩, rfl, rfl⟩, fun _ => ⟨rfl, rfl, ⟨rfl, nofun, nofun, rfl⟩, rfl, rfl⟩, rfl, rfl,
   rfl, fun _ => ⟨rfl, rfl, ⟨rfl, nofun, nofun, rfl⟩, rfl, rfl⟩, fun _ => ⟨rfl, rfl, ⟨rfl, nofun, nofun, rfl⟩, rfl, rfl⟩, rfl,
   ⟨rfl, rfl, ⟨rfl, nofun, nofun, rfl⟩⟩, fun _ => ⟨rfl, rfl, ⟨rfl, nofun, nofun, rfl⟩, rfl, rfl⟩, rfl, rfl, rfl,
   fun _ => ⟨rfl, rfl, ⟨rfl, nofun, nofun, rfl⟩, rfl, rfl⟩, fun _ => ⟨rfl, rfl, ⟨rfl, nofun, nofun, rfl⟩, rfl, rfl⟩, rfl, trivial⟩

theorem rowE_fits : AllFit 0xE0 opcodeRowE :=
  ⟨fun _ => ⟨rfl, rfl, ⟨rfl, nofun, nofun, rfl⟩, rfl, rfl⟩, fun _ => ⟨rfl, rfl, ⟨rfl, nofun, nofun, rfl⟩, rfl, rfl⟩, rfl, rfl,
   fun _ => ⟨rfl, rfl, ⟨rfl, nofun, nofun, rfl⟩, rfl, rfl⟩, fun _ => ⟨rfl, rfl, ⟨rfl, nofun, nofun, rfl⟩, rfl, rfl⟩,
   fun _ => ⟨rfl, rfl, ⟨rfl, nofun, nofun, rfl⟩, rfl, rfl⟩, rfl, ⟨rfl, rfl, ⟨rfl, nofun, nofun, rfl⟩⟩,
   fun _ => ⟨rfl, rfl, ⟨rfl, nofun, nofun, rfl⟩, rfl, rfl⟩, ⟨rfl, rfl, ⟨rfl, nofun, nofun, rfl⟩⟩, rfl,
   fun _ => ⟨rfl, rfl, ⟨rfl, nofun, nofun, rfl⟩, rfl, rfl⟩, fun _ => ⟨rfl, rfl, ⟨rfl, nofun, nofun, rfl⟩, rfl, rfl⟩,
   fun _ => ⟨rfl, rfl, ⟨rfl, nofun, nofun, rfl⟩, rfl, rfl⟩, rfl, trivial⟩

theorem rowF_fits : AllFit 0xF0 opcodeRowF :=
  ⟨fun _ => ⟨rfl, rfl, ⟨rfl, nofun, nofun, rfl⟩, rfl, rfl⟩, fun _ => ⟨rfl, rfl, ⟨rfl, nofun, nofun, rfl⟩, rfl, rfl⟩, rfl, rfl,
   rfl, fun _ => ⟨rfl, rfl, ⟨rfl, nofun, nofun, rfl⟩, rfl, rfl⟩, fun _ => ⟨rfl, rfl, ⟨rfl, nofun, nofun, rfl⟩, rfl, rfl⟩, rfl,
   ⟨rfl, rfl, ⟨rfl, nofun, nofun, rfl⟩⟩, fun _ => ⟨rfl, rfl, ⟨rfl, nofun, nofun, rfl⟩, rfl, rfl⟩, rfl, rfl, rfl,
   fun _ => ⟨rfl, rfl, ⟨rfl, nofun, nofun, rfl⟩, rfl, rfl⟩, fun _ => ⟨rfl, rfl, ⟨rfl, nofun, nofun, rfl⟩, rfl, rfl⟩, rfl, trivial⟩

theorem AllFit.append {k : Nat} {es fs : List Entry} (h : AllFit k es) (h' : AllFit (k + es.length) fs) :
    AllFit k (es ++ fs) := by
  induction es generalizing k with
  | nil => exact h'
  | cons e es ih => exact ⟨h.1, ih h.2 (by rwa [List.length_cons, ← Nat.add_assoc, Nat.add_right_comm] at h')⟩

theorem AllFit.getD {k : Nat} {es : List Entry} (h : AllFit k es) {n : Nat} (hn : n < es.length) :
    (es.getD n .unimpl).Fits (BitVec.ofNat 8 (k + n)) := by
  induction es generalizing k n with
  | nil => exact absurd hn (Nat.not_lt_zero n)
  | cons e es ih =>
    cases n with
    | zero => exact h.1
    | succ n =>
      have := ih h.2 (Nat.lt_of_succ_lt_succ hn)
      rwa [Nat.add_assoc, Nat.add_comm 1 n] at this

end Entry

set_option maxRecDepth 4000 in
/-- Every opcode byte's entry fits it. -/
theorem entryOf_fits (opcode : Byte) : (entryOf opcode).Fits opcode := by
  have rows0 := ((Entry.row0_fits.append Entry.row1_fits).append Entry.row2_fits).append Entry.row3_fits
  have rows1 := (((rows0.append Entry.row4_fits).append Entry.row5_fits).append Entry.row6_fits).append Entry.row7_fits
  have rows2 := (((rows1.append Entry.row8_fits).append Entry.row9_fits).append Entry.rowA_fits).append Entry.rowB_fits
  have rows3 := (((rows2.append Entry.rowC_fits).append Entry.rowD_fits).append Entry.rowE_fits).append Entry.rowF_fits
  have all : Entry.AllFit 0 opcodeTable := rows3
  have := all.getD (n := opcode.toNat) (show opcode.toNat < 256 from opcode.isLt)
  rwa [Nat.zero_add, BitVec.ofNat_toNat, BitVec.setWidth_eq] at this

set_option maxRecDepth 4000 in
/-- An unimplemented byte's entry is the marker (R77). -/
theorem entryOf_unimplemented {opcode : Byte} (h : opcode ∈ unimplementedBytes) : entryOf opcode = .unimpl := by
  have marker : ∀ opcode : Byte, opcode ∈ unimplementedBytes → (entryOf opcode).isMarker = true := by decide
  have := marker opcode h
  revert this
  cases entryOf opcode <;> simp [Entry.isMarker]

section Decode
variable {opcode : Byte}

theorem decode_f1 {i : Instr} (h : entryOf opcode = .f1 i) (rest : List Byte) : decode (opcode :: rest) = .ok (i, rest) := by
  simp [decode, h]

theorem decode_f2 {make : Byte → Instr} (h : entryOf opcode = .f2 make) (d8 : Byte) (rest : List Byte) :
    decode (opcode :: d8 :: rest) = .ok (make d8, rest) := by
  simp [decode, h]

theorem decode_f3 {make : Word → Instr} (h : entryOf opcode = .f3 make) (lo hi : Byte) (rest : List Byte) :
    decode (opcode :: lo :: hi :: rest) = .ok (make (joinBytes hi lo), rest) := by
  simp [decode, h]

theorem decode_marker (h : entryOf opcode = .unimpl) (rest : List Byte) :
    decode (opcode :: rest) = .ok (.unimpl opcode, rest) := by
  simp [decode, h]

end Decode

end Sys2Proof
end

