-- ==== Sys2Proof/Laws/Flags.lean ====
section
/-! SUPPORT. What each flag computation writes and what it leaves (10_state R30). -/

namespace Sys2Proof.Machine

namespace Status

section SetNZ
variable (p : Status) (v : Byte)
@[simp] theorem setNZ_n : (p.setNZ v).n = v.getLsbD 7 := rfl
@[simp] theorem setNZ_z : (p.setNZ v).z = (v == 0) := rfl
@[simp] theorem setNZ_v : (p.setNZ v).v = p.v := rfl
@[simp] theorem setNZ_b : (p.setNZ v).b = p.b := rfl
@[simp] theorem setNZ_d : (p.setNZ v).d = p.d := rfl
@[simp] theorem setNZ_i : (p.setNZ v).i = p.i := rfl
@[simp] theorem setNZ_c : (p.setNZ v).c = p.c := rfl
end SetNZ

section Unpack
variable (p : Status) (b : Byte)
@[simp] theorem unpack_n : (p.unpack b).n = b.getLsbD 7 := rfl
@[simp] theorem unpack_v : (p.unpack b).v = b.getLsbD 6 := rfl
@[simp] theorem unpack_b : (p.unpack b).b = p.b := rfl
@[simp] theorem unpack_d : (p.unpack b).d = b.getLsbD 3 := rfl
@[simp] theorem unpack_i : (p.unpack b).i = b.getLsbD 2 := rfl
@[simp] theorem unpack_z : (p.unpack b).z = b.getLsbD 1 := rfl
@[simp] theorem unpack_c : (p.unpack b).c = b.getLsbD 0 := rfl
end Unpack

section Compare
variable (p : Status) (r v : Byte)
@[simp] theorem compare_n : (p.compare r v).n = (r - v).getLsbD 7 := rfl
@[simp] theorem compare_z : (p.compare r v).z = (r == v) := rfl
@[simp] theorem compare_c : (p.compare r v).c = decide (v.toNat ≤ r.toNat) := rfl
@[simp] theorem compare_v : (p.compare r v).v = p.v := rfl
@[simp] theorem compare_b : (p.compare r v).b = p.b := rfl
@[simp] theorem compare_d : (p.compare r v).d = p.d := rfl
@[simp] theorem compare_i : (p.compare r v).i = p.i := rfl
end Compare

section AddCore
variable (p : Status) (a m : Byte)
@[simp] theorem addCore_b : (p.addCore a m).2.b = p.b := rfl
@[simp] theorem addCore_d : (p.addCore a m).2.d = p.d := rfl
@[simp] theorem addCore_i : (p.addCore a m).2.i = p.i := rfl
end AddCore

section BitTest
variable (p : Status) (a v : Byte)
@[simp] theorem bitTest_n : (p.bitTest a v).n = v.getLsbD 7 := rfl
@[simp] theorem bitTest_v : (p.bitTest a v).v = v.getLsbD 6 := rfl
@[simp] theorem bitTest_z : (p.bitTest a v).z = ((a &&& v) == 0) := rfl
@[simp] theorem bitTest_b : (p.bitTest a v).b = p.b := rfl
@[simp] theorem bitTest_d : (p.bitTest a v).d = p.d := rfl
@[simp] theorem bitTest_i : (p.bitTest a v).i = p.i := rfl
@[simp] theorem bitTest_c : (p.bitTest a v).c = p.c := rfl
end BitTest

end Status

@[simp] theorem bitAt_false (k : Nat) : bitAt false k = 0#8 := rfl
@[simp] theorem bitAt_true (k : Nat) : bitAt true k = 1#8 <<< k := rfl

end Sys2Proof.Machine
end

