-- ==== Sys2Proof/Laws/State.lean ====
section
/-! SUPPORT. One lemma per field per named update of the state, each true by unfolding, so that no later proof unfolds one. -/

namespace Sys2Proof.Machine

namespace State

section Logged
variable (s : State) (acc : BusAccess)
@[simp] theorem logged_a : (s.logged acc).a = s.a := rfl
@[simp] theorem logged_x : (s.logged acc).x = s.x := rfl
@[simp] theorem logged_y : (s.logged acc).y = s.y := rfl
@[simp] theorem logged_sp : (s.logged acc).sp = s.sp := rfl
@[simp] theorem logged_pc : (s.logged acc).pc = s.pc := rfl
@[simp] theorem logged_p : (s.logged acc).p = s.p := rfl
@[simp] theorem logged_bus : (s.logged acc).bus = s.bus := rfl
@[simp] theorem logged_cycles : (s.logged acc).out.cycles = s.out.cycles := rfl
@[simp] theorem logged_accesses : (s.logged acc).out.accesses = s.out.accesses ++ [acc] := rfl
end Logged

section MemRead
variable (s : State) (addr : Word)
@[simp] theorem memRead_value : (s.memRead addr).1 = s.bus.peek addr := rfl
@[simp] theorem memRead_a : (s.memRead addr).2.a = s.a := rfl
@[simp] theorem memRead_x : (s.memRead addr).2.x = s.x := rfl
@[simp] theorem memRead_y : (s.memRead addr).2.y = s.y := rfl
@[simp] theorem memRead_sp : (s.memRead addr).2.sp = s.sp := rfl
@[simp] theorem memRead_pc : (s.memRead addr).2.pc = s.pc := rfl
@[simp] theorem memRead_p : (s.memRead addr).2.p = s.p := rfl
@[simp] theorem memRead_bus : (s.memRead addr).2.bus = (s.bus.read addr).2 := rfl
@[simp] theorem memRead_cycles : (s.memRead addr).2.out.cycles = s.out.cycles := rfl
@[simp] theorem memRead_accesses :
    (s.memRead addr).2.out.accesses = s.out.accesses ++ [.read addr (s.bus.peek addr)] := rfl
end MemRead

section MemWrite
variable (s : State) (addr : Word) (v : Byte)
@[simp] theorem memWrite_a : (s.memWrite addr v).a = s.a := rfl
@[simp] theorem memWrite_x : (s.memWrite addr v).x = s.x := rfl
@[simp] theorem memWrite_y : (s.memWrite addr v).y = s.y := rfl
@[simp] theorem memWrite_sp : (s.memWrite addr v).sp = s.sp := rfl
@[simp] theorem memWrite_pc : (s.memWrite addr v).pc = s.pc := rfl
@[simp] theorem memWrite_p : (s.memWrite addr v).p = s.p := rfl
@[simp] theorem memWrite_bus : (s.memWrite addr v).bus = s.bus.write addr v := rfl
@[simp] theorem memWrite_cycles : (s.memWrite addr v).out.cycles = s.out.cycles := rfl
@[simp] theorem memWrite_accesses : (s.memWrite addr v).out.accesses = s.out.accesses ++ [.write addr v] := rfl
end MemWrite

section BeginStep
variable (s : State)
@[simp] theorem beginStep_a : s.beginStep.a = s.a := rfl
@[simp] theorem beginStep_x : s.beginStep.x = s.x := rfl
@[simp] theorem beginStep_y : s.beginStep.y = s.y := rfl
@[simp] theorem beginStep_sp : s.beginStep.sp = s.sp := rfl
@[simp] theorem beginStep_pc : s.beginStep.pc = s.pc := rfl
@[simp] theorem beginStep_p : s.beginStep.p = s.p := rfl
@[simp] theorem beginStep_bus : s.beginStep.bus = s.bus := rfl
@[simp] theorem beginStep_out : s.beginStep.out = { cycles := none, accesses := [] } := rfl
end BeginStep

section Returning
variable (s : State) (n : Option Nat)
@[simp] theorem returning_a : (s.returning n).a = s.a := rfl
@[simp] theorem returning_x : (s.returning n).x = s.x := rfl
@[simp] theorem returning_y : (s.returning n).y = s.y := rfl
@[simp] theorem returning_sp : (s.returning n).sp = s.sp := rfl
@[simp] theorem returning_pc : (s.returning n).pc = s.pc := rfl
@[simp] theorem returning_p : (s.returning n).p = s.p := rfl
@[simp] theorem returning_bus : (s.returning n).bus = s.bus := rfl
@[simp] theorem returning_cycles : (s.returning n).out.cycles = n := rfl
@[simp] theorem returning_accesses : (s.returning n).out.accesses = s.out.accesses := rfl
end Returning

section PlaceBytes
variable (s : State) (bytes : List Byte)
@[simp] theorem placeBytes_a : (s.placeBytes bytes).a = s.a := rfl
@[simp] theorem placeBytes_x : (s.placeBytes bytes).x = s.x := rfl
@[simp] theorem placeBytes_y : (s.placeBytes bytes).y = s.y := rfl
@[simp] theorem placeBytes_sp : (s.placeBytes bytes).sp = s.sp := rfl
@[simp] theorem placeBytes_pc : (s.placeBytes bytes).pc = s.pc := rfl
@[simp] theorem placeBytes_p : (s.placeBytes bytes).p = s.p := rfl
@[simp] theorem placeBytes_out : (s.placeBytes bytes).out = s.out := rfl
end PlaceBytes

end State

end Sys2Proof.Machine
end

