-- ==== Sys2Proof/Laws/Ops.lean ====
section
/-! SUPPORT. One equation per shared operation over bus and stack: everything it does, as one record update of the state. -/

namespace Sys2Proof.Machine

namespace State
variable (s : State)

theorem memRead_eq (addr : Word) :
    s.memRead addr = (s.bus.peek addr, { s with
      bus := (s.bus.read addr).2,
      out := { s.out with accesses := s.out.accesses ++ [.read addr (s.bus.peek addr)] } }) := rfl

theorem fetch_eq :
    s.fetch = (s.bus.peek s.pc, { s with
      pc := s.pc + 1, bus := (s.bus.read s.pc).2,
      out := { s.out with accesses := s.out.accesses ++ [.read s.pc (s.bus.peek s.pc)] } }) := rfl

theorem push_eq (v : Byte) :
    s.push v = { s with
      sp := s.sp - 1, bus := s.bus.write (stackAddr s.sp) v,
      out := { s.out with accesses := s.out.accesses ++ [.write (stackAddr s.sp) v] } } := rfl

theorem pull_eq :
    s.pull =
      let at1 := stackAddr (s.sp + 1)
      (s.bus.peek at1, { s with
        sp := s.sp + 1, bus := (s.bus.read at1).2,
        out := { s.out with accesses := s.out.accesses ++ [.read at1 (s.bus.peek at1)] } }) := rfl

theorem pushWord_eq (w : Word) :
    s.pushWord w = { s with
      sp := s.sp - 1 - 1,
      bus := (s.bus.write (stackAddr s.sp) (highByte w)).write (stackAddr (s.sp - 1)) (lowByte w),
      out := { s.out with
        accesses := s.out.accesses ++ [.write (stackAddr s.sp) (highByte w)] ++
          [.write (stackAddr (s.sp - 1)) (lowByte w)] } } := rfl

/-- Two reads in a row of the bus, as an operation lists them: the second one meets the bus as the first one left it. -/
theorem pullWord_eq :
    s.pullWord =
      let at1 := stackAddr (s.sp + 1)
      let at2 := stackAddr (s.sp + 1 + 1)
      let b := (s.bus.read at1).2
      (joinBytes (b.peek at2) (s.bus.peek at1), { s with
        sp := s.sp + 1 + 1, bus := (b.read at2).2,
        out := { s.out with
          accesses := s.out.accesses ++ [.read at1 (s.bus.peek at1)] ++ [.read at2 (b.peek at2)] } }) := rfl

theorem read16_eq (addr : Word) :
    s.read16 addr =
      let b := (s.bus.read addr).2
      (joinBytes (b.peek (addr + 1)) (s.bus.peek addr), { s with
        bus := (b.read (addr + 1)).2,
        out := { s.out with
          accesses := s.out.accesses ++ [.read addr (s.bus.peek addr)] ++ [.read (addr + 1) (b.peek (addr + 1))] } }) := rfl

/-- Taking a trap: A, X, Y and every flag but I stay; PC is the word at the vector, read after the pushes. -/
theorem takeTrap_eq (ret : Word) (status : Byte) (vector : Word) :
    s.takeTrap ret status vector =
      let pushed := (s.pushWord ret).push status
      let v := pushed.read16 vector
      { v.2 with p := { s.p with i := true }, pc := v.1 } := by
  simp only [takeTrap, read16_eq, push_eq, pushWord_eq]

/-- Returning from a trap: A, X and Y stay; the three bytes come from the three places above S. -/
theorem returnFromTrap_eq :
    s.returnFromTrap =
      let at1 := stackAddr (s.sp + 1)
      let at2 := stackAddr (s.sp + 1 + 1)
      let at3 := stackAddr (s.sp + 1 + 1 + 1)
      let b1 := (s.bus.read at1).2
      let b2 := (b1.read at2).2
      { s with
        sp := s.sp + 1 + 1 + 1,
        p := s.p.unpack (s.bus.peek at1),
        pc := joinBytes (b2.peek at3) (b1.peek at2),
        bus := (b2.read at3).2,
        out := { s.out with
          accesses := s.out.accesses ++ [.read at1 (s.bus.peek at1)] ++ [.read at2 (b1.peek at2)] ++
            [.read at3 (b2.peek at3)] } } := rfl

/-- The host's reset leaves the state right after reset over the bus it finds. -/
theorem hostReset_eq (draw : ResetDraw) : s.hostReset draw = State.afterReset draw s.bus := rfl

end State

/-- Two bytes of the stack pointer address two bytes of the stack page. -/
theorem stackAddr_toNat (sp : Byte) : (stackAddr sp).toNat = 256 + sp.toNat := by
  have : sp.toNat < 256 := sp.isLt
  simp only [stackAddr, joinBytes, BitVec.toNat_append]
  rw [← Nat.shiftLeft_add_eq_or_of_lt this]; rfl

theorem stackAddr_inj {a b : Byte} : stackAddr a = stackAddr b ↔ a = b := by
  refine ⟨fun h => BitVec.eq_of_toNat_eq ?_, fun h => h ▸ rfl⟩
  have := congrArg BitVec.toNat h
  rw [stackAddr_toNat, stackAddr_toNat] at this
  omega

end Sys2Proof.Machine
end

