-- ==== Sys2Proof/Laws/Operands.lean ====
section
/-! SUPPORT. What resolving an operand can do to the state: it makes its reads, which are listed and may change the bus, and changes
nothing else (R93). -/

namespace Sys2Proof.Machine

/-- The word a zero-page pointer holds: two reads. -/
theorem State.readZpPointer_eq (s : State) (z : Byte) :
    s.readZpPointer z =
      let b := (s.bus.read (zext16 z)).2
      (joinBytes (b.peek (zext16 (z + 1))) (s.bus.peek (zext16 z)), { s with
        bus := (b.read (zext16 (z + 1))).2,
        out := { s.out with
          accesses := s.out.accesses ++ [.read (zext16 z) (s.bus.peek (zext16 z))] ++
            [.read (zext16 (z + 1)) (b.peek (zext16 (z + 1)))] } }) := rfl

/-- The pointer reads a mode makes, in order (R96 to R105), each with the byte the bus gives at that moment. -/
def MemMode.pointerReads (m : MemMode) (s : State) : List BusAccess :=
  let zpPointer (z : Byte) : List BusAccess :=
    [.read (zext16 z) (s.bus.peek (zext16 z)),
     .read (zext16 (z + 1)) ((s.bus.read (zext16 z)).2.peek (zext16 (z + 1)))]
  match m with
  | .izx d8 => zpPointer (d8 + s.x)
  | .izy d8 => zpPointer d8
  | _ => []

/-- The bus after a mode's pointer reads. -/
def MemMode.busAfter (m : MemMode) (s : State) : Bus := (m.resolve s).2.bus

/-- The state after a mode is resolved: the bus and the list have seen the pointer reads, nothing else has changed. -/
theorem MemMode.resolve_state (m : MemMode) (s : State) :
    (m.resolve s).2 = { s with
      bus := m.busAfter s, out := { s.out with accesses := s.out.accesses ++ m.pointerReads s } } := by
  cases m <;>
    simp [MemMode.resolve, MemMode.busAfter, MemMode.pointerReads, State.readZpPointer_eq]

/-- What an address reaches is the same after the pointer reads. -/
@[simp] theorem MemMode.busAfter_map (m : MemMode) (s : State) : (m.busAfter s).map = s.bus.map := by
  cases m <;> simp [MemMode.busAfter, MemMode.resolve, State.readZpPointer_eq]

@[simp] theorem MemMode.busAfter_place (m : MemMode) (s : State) (a : Word) : (m.busAfter s).place a = s.bus.place a :=
  Bus.place_congr (m.busAfter_map s) a

/-- Pointer reads leave every byte that memory answers. -/
@[simp] theorem MemMode.busAfter_mem (m : MemMode) (s : State) : (m.busAfter s).mem = s.bus.mem := by
  cases m <;> simp [MemMode.busAfter, MemMode.resolve, State.readZpPointer_eq]

/-- A memory source is one read at the resolved address. -/
theorem Source.value_mem (m : MemMode) (s : State) :
    (Source.mem m).value s = ((m.busAfter s).peek (m.resolve s).1, { s with
      bus := ((m.busAfter s).read (m.resolve s).1).2,
      out := { s.out with
        accesses := s.out.accesses ++ m.pointerReads s ++
          [.read (m.resolve s).1 ((m.busAfter s).peek (m.resolve s).1)] } }) := by
  simp only [Source.value, State.memRead_eq, MemMode.resolve_state]

@[simp] theorem Source.value_imm (d8 : Byte) (s : State) : (Source.imm d8).value s = (d8, s) := rfl

/-- Reading an operand changes nothing but the bus and the step's list of accesses. -/
theorem Source.value_state (o : Source) (s : State) :
    (o.value s).2 = { s with bus := (o.value s).2.bus, out := (o.value s).2.out } := by
  cases o with
  | imm d8 => rfl
  | mem m => rw [Source.value_mem]

/-- Reading an operand writes no memory cell and no window. -/
@[simp] theorem Source.value_mem_kept (o : Source) (s : State) : (o.value s).2.bus.mem = s.bus.mem := by
  cases o with
  | imm d8 => rfl
  | mem m => simp [Source.value_mem]

@[simp] theorem Source.value_map_kept (o : Source) (s : State) : (o.value s).2.bus.map = s.bus.map := by
  cases o with
  | imm d8 => rfl
  | mem m => simp [Source.value_mem]

/-- Everything a read-modify-write does. -/
theorem State.modify_eq (s : State) (m : MemMode) (f : Byte → Status → Byte × Status) :
    s.modify m f =
      let addr := (m.resolve s).1
      let old := (m.busAfter s).peek addr
      { s with
        p := (f old s.p).2, bus := ((m.busAfter s).read addr).2.write addr (f old s.p).1,
        out := { s.out with
          accesses := s.out.accesses ++ m.pointerReads s ++ [.read addr old] ++ [.write addr (f old s.p).1] } } := by
  simp only [State.modify, State.memRead_eq, State.memWrite, MemMode.resolve_state, State.logged]

/-- Mode `ind`: two reads in one page (R103). -/
theorem State.resolveInd_eq (s : State) (ptr : Word) :
    s.resolveInd ptr =
      let next := joinBytes (highByte ptr) (lowByte ptr + 1)
      let b := (s.bus.read ptr).2
      (joinBytes (b.peek next) (s.bus.peek ptr), { s with
        bus := (b.read next).2,
        out := { s.out with
          accesses := s.out.accesses ++ [.read ptr (s.bus.peek ptr)] ++ [.read next (b.peek next)] } }) := rfl

end Sys2Proof.Machine
end

