-- ==== Sys2Proof/Laws/Shape.lean ====
section
/-! SUPPORT. What an instruction can answer, said once: `exec_shape` lists the shared operations an instruction can be, with the
mnemonics that use each, so that a proof about every instruction has one case for each operation and not one for each opcode. -/

namespace Sys2Proof.Machine

/-- `Shape s i r`: on the state `s` the instruction `i` answers `r`, by the operation the constructor names. -/
inductive Shape (s : State) : Instr → Result → Prop where
  | lda (i : Instr) (o : Source) : i.mnemonic = .LDA → Shape s i (.next (loadA o s))
  | ldx (i : Instr) (o : Source) : i.mnemonic = .LDX → Shape s i (.next (loadX o s))
  | ldy (i : Instr) (o : Source) : i.mnemonic = .LDY → Shape s i (.next (loadY o s))
  | sta (i : Instr) (m : MemMode) : i.mnemonic = .STA → i.mode ≠ .acc → Shape s i (.next (store m s.a s))
  | stx (i : Instr) (m : MemMode) : i.mnemonic = .STX → i.mode ≠ .acc → Shape s i (.next (store m s.x s))
  | sty (i : Instr) (m : MemMode) : i.mnemonic = .STY → i.mode ≠ .acc → Shape s i (.next (store m s.y s))
  | tax (i : Instr) : i.mnemonic = .TAX → Shape s i (.next { s with x := s.a, p := s.p.setNZ s.a })
  | tay (i : Instr) : i.mnemonic = .TAY → Shape s i (.next { s with y := s.a, p := s.p.setNZ s.a })
  | txa (i : Instr) : i.mnemonic = .TXA → Shape s i (.next { s with a := s.x, p := s.p.setNZ s.x })
  | tya (i : Instr) : i.mnemonic = .TYA → Shape s i (.next { s with a := s.y, p := s.p.setNZ s.y })
  | tsx (i : Instr) : i.mnemonic = .TSX → Shape s i (.next { s with x := s.sp, p := s.p.setNZ s.sp })
  | txs (i : Instr) : i.mnemonic = .TXS → Shape s i (.next { s with sp := s.x })
  | inx (i : Instr) : i.mnemonic = .INX → Shape s i (.next { s with x := s.x + 1, p := s.p.setNZ (s.x + 1) })
  | iny (i : Instr) : i.mnemonic = .INY → Shape s i (.next { s with y := s.y + 1, p := s.p.setNZ (s.y + 1) })
  | dex (i : Instr) : i.mnemonic = .DEX → Shape s i (.next { s with x := s.x - 1, p := s.p.setNZ (s.x - 1) })
  | dey (i : Instr) : i.mnemonic = .DEY → Shape s i (.next { s with y := s.y - 1, p := s.p.setNZ (s.y - 1) })
  | inc (i : Instr) (m : MemMode) : i.mnemonic = .INC → i.mode ≠ .acc → Shape s i (.next (addToMemory 1 m s))
  | dec (i : Instr) (m : MemMode) : i.mnemonic = .DEC → i.mode ≠ .acc → Shape s i (.next (addToMemory (-1) m s))
  | cmp (i : Instr) (o : Source) : i.mnemonic = .CMP → Shape s i (.next (compareWith s.a o s))
  | cpx (i : Instr) (o : Source) : i.mnemonic = .CPX → Shape s i (.next (compareWith s.x o s))
  | cpy (i : Instr) (o : Source) : i.mnemonic = .CPY → Shape s i (.next (compareWith s.y o s))
  | bpl (i : Instr) (d8 : Byte) : i.mnemonic = .BPL → Shape s i (.next (branchIf (!s.p.n) d8 s))
  | bmi (i : Instr) (d8 : Byte) : i.mnemonic = .BMI → Shape s i (.next (branchIf (s.p.n) d8 s))
  | bvc (i : Instr) (d8 : Byte) : i.mnemonic = .BVC → Shape s i (.next (branchIf (!s.p.v) d8 s))
  | bvs (i : Instr) (d8 : Byte) : i.mnemonic = .BVS → Shape s i (.next (branchIf (s.p.v) d8 s))
  | bcc (i : Instr) (d8 : Byte) : i.mnemonic = .BCC → Shape s i (.next (branchIf (!s.p.c) d8 s))
  | bcs (i : Instr) (d8 : Byte) : i.mnemonic = .BCS → Shape s i (.next (branchIf (s.p.c) d8 s))
  | bne (i : Instr) (d8 : Byte) : i.mnemonic = .BNE → Shape s i (.next (branchIf (!s.p.z) d8 s))
  | beq (i : Instr) (d8 : Byte) : i.mnemonic = .BEQ → Shape s i (.next (branchIf (s.p.z) d8 s))
  | jmpAbs (i : Instr) (addr : Word) : i.mnemonic = .JMP → Shape s i (.next { s with pc := addr })
  | jmpInd (i : Instr) (addr : Word) : i.mnemonic = .JMP →
      Shape s i (.next { (s.resolveInd addr).2 with pc := (s.resolveInd addr).1 })
  | jsr (i : Instr) (addr : Word) : i.mnemonic = .JSR → i.mode ≠ .acc →
      Shape s i (.next { s.pushWord (s.pc - 1) with pc := addr })
  | rts (i : Instr) : i.mnemonic = .RTS → Shape s i (.next { s.pullWord.2 with pc := s.pullWord.1 + 1 })
  | clc (i : Instr) : i.mnemonic = .CLC → Shape s i (.next { s with p := { s.p with c := false } })
  | sec (i : Instr) : i.mnemonic = .SEC → Shape s i (.next { s with p := { s.p with c := true } })
  | cli (i : Instr) : i.mnemonic = .CLI → Shape s i (.next { s with p := { s.p with i := false } })
  | sei (i : Instr) : i.mnemonic = .SEI → Shape s i (.next { s with p := { s.p with i := true } })
  | clv (i : Instr) : i.mnemonic = .CLV → Shape s i (.next { s with p := { s.p with v := false } })
  | cld (i : Instr) : i.mnemonic = .CLD → Shape s i (.next { s with p := { s.p with d := false } })
  | sed (i : Instr) : i.mnemonic = .SED → Shape s i (.next { s with p := { s.p with d := true } })
  | adc (i : Instr) (o : Source) : i.mnemonic = .ADC → Shape s i (.next (addWithCarry o s))
  | sbc (i : Instr) (o : Source) : i.mnemonic = .SBC → Shape s i (.next (subtractWithBorrow o s))
  | and (i : Instr) (o : Source) : i.mnemonic = .AND → Shape s i (.next (logicA (· &&& ·) o s))
  | ora (i : Instr) (o : Source) : i.mnemonic = .ORA → Shape s i (.next (logicA (· ||| ·) o s))
  | eor (i : Instr) (o : Source) : i.mnemonic = .EOR → Shape s i (.next (logicA (· ^^^ ·) o s))
  | bit (i : Instr) (m : MemMode) : i.mnemonic = .BIT → Shape s i (.next (testBits m s))
  | aslAcc (i : Instr) : i.mnemonic = .ASL → i.mode = .acc → Shape s i (.next (shiftTarget shiftAsl .acc s))
  | aslMem (i : Instr) (m : MemMode) : i.mnemonic = .ASL → i.mode ≠ .acc →
      Shape s i (.next (shiftTarget shiftAsl (.mem m) s))
  | lsrAcc (i : Instr) : i.mnemonic = .LSR → i.mode = .acc → Shape s i (.next (shiftTarget shiftLsr .acc s))
  | lsrMem (i : Instr) (m : MemMode) : i.mnemonic = .LSR → i.mode ≠ .acc →
      Shape s i (.next (shiftTarget shiftLsr (.mem m) s))
  | rolAcc (i : Instr) : i.mnemonic = .ROL → i.mode = .acc → Shape s i (.next (shiftTarget shiftRol .acc s))
  | rolMem (i : Instr) (m : MemMode) : i.mnemonic = .ROL → i.mode ≠ .acc →
      Shape s i (.next (shiftTarget shiftRol (.mem m) s))
  | rorAcc (i : Instr) : i.mnemonic = .ROR → i.mode = .acc → Shape s i (.next (shiftTarget shiftRor .acc s))
  | rorMem (i : Instr) (m : MemMode) : i.mnemonic = .ROR → i.mode ≠ .acc →
      Shape s i (.next (shiftTarget shiftRor (.mem m) s))
  | pha (i : Instr) : i.mnemonic = .PHA → i.mode ≠ .acc → Shape s i (.next (s.push s.a))
  | pla (i : Instr) : i.mnemonic = .PLA → Shape s i (.next { s.pull.2 with a := s.pull.1, p := s.pull.2.p.setNZ s.pull.1 })
  | php (i : Instr) : i.mnemonic = .PHP → i.mode ≠ .acc → Shape s i (.next (s.push s.p.pack))
  | plp (i : Instr) : i.mnemonic = .PLP → Shape s i (.next { s.pull.2 with p := s.pull.2.p.unpack s.pull.1 })
  | brk (i : Instr) : i.mnemonic = .BRK → i.mode ≠ .acc → Shape s i (.next (s.takeTrap (s.pc + 1) s.p.pack Config.brkVector))
  | rti (i : Instr) : i.mnemonic = .RTI → Shape s i (.next s.returnFromTrap)
  | nop (i : Instr) : i.mnemonic = .NOP → Shape s i (.next s)
  | unimpl (opcode : Byte) : Shape s (.unimpl opcode) (.fault (.unimplementedOpcode opcode (s.pc - 1)))

/-- Every instruction on every state answers by one of the shapes. -/
theorem exec_shape (i : Instr) (s : State) : Shape s i (exec i s) := by
  cases i with
  | ldaImm d8 => exact .lda _ (.imm d8) rfl
  | ldaZp d8 => exact .lda _ (.mem (.zp d8)) rfl
  | ldaZpx d8 => exact .lda _ (.mem (.zpx d8)) rfl
  | ldaAbs addr => exact .lda _ (.mem (.abs addr)) rfl
  | ldaAbx addr => exact .lda _ (.mem (.abx addr)) rfl
  | ldaAby addr => exact .lda _ (.mem (.aby addr)) rfl
  | ldaIzx d8 => exact .lda _ (.mem (.izx d8)) rfl
  | ldaIzy d8 => exact .lda _ (.mem (.izy d8)) rfl
  | ldxImm d8 => exact .ldx _ (.imm d8) rfl
  | ldxZp d8 => exact .ldx _ (.mem (.zp d8)) rfl
  | ldxZpy d8 => exact .ldx _ (.mem (.zpy d8)) rfl
  | ldxAbs addr => exact .ldx _ (.mem (.abs addr)) rfl
  | ldxAby addr => exact .ldx _ (.mem (.aby addr)) rfl
  | ldyImm d8 => exact .ldy _ (.imm d8) rfl
  | ldyZp d8 => exact .ldy _ (.mem (.zp d8)) rfl
  | ldyZpx d8 => exact .ldy _ (.mem (.zpx d8)) rfl
  | ldyAbs addr => exact .ldy _ (.mem (.abs addr)) rfl
  | ldyAbx addr => exact .ldy _ (.mem (.abx addr)) rfl
  | staZp d8 => exact .sta _ (.zp d8) rfl nofun
  | staZpx d8 => exact .sta _ (.zpx d8) rfl nofun
  | staAbs addr => exact .sta _ (.abs addr) rfl nofun
  | staAbx addr => exact .sta _ (.abx addr) rfl nofun
  | staAby addr => exact .sta _ (.aby addr) rfl nofun
  | staIzx d8 => exact .sta _ (.izx d8) rfl nofun
  | staIzy d8 => exact .sta _ (.izy d8) rfl nofun
  | stxZp d8 => exact .stx _ (.zp d8) rfl nofun
  | stxZpy d8 => exact .stx _ (.zpy d8) rfl nofun
  | stxAbs addr => exact .stx _ (.abs addr) rfl nofun
  | styZp d8 => exact .sty _ (.zp d8) rfl nofun
  | styZpx d8 => exact .sty _ (.zpx d8) rfl nofun
  | styAbs addr => exact .sty _ (.abs addr) rfl nofun
  | tax => exact .tax _ rfl
  | tay => exact .tay _ rfl
  | txa => exact .txa _ rfl
  | tya => exact .tya _ rfl
  | tsx => exact .tsx _ rfl
  | txs => exact .txs _ rfl
  | inx => exact .inx _ rfl
  | iny => exact .iny _ rfl
  | dex => exact .dex _ rfl
  | dey => exact .dey _ rfl
  | incZp d8 => exact .inc _ (.zp d8) rfl nofun
  | incZpx d8 => exact .inc _ (.zpx d8) rfl nofun
  | incAbs addr => exact .inc _ (.abs addr) rfl nofun
  | incAbx addr => exact .inc _ (.abx addr) rfl nofun
  | decZp d8 => exact .dec _ (.zp d8) rfl nofun
  | decZpx d8 => exact .dec _ (.zpx d8) rfl nofun
  | decAbs addr => exact .dec _ (.abs addr) rfl nofun
  | decAbx addr => exact .dec _ (.abx addr) rfl nofun
  | cmpImm d8 => exact .cmp _ (.imm d8) rfl
  | cmpZp d8 => exact .cmp _ (.mem (.zp d8)) rfl
  | cmpZpx d8 => exact .cmp _ (.mem (.zpx d8)) rfl
  | cmpAbs addr => exact .cmp _ (.mem (.abs addr)) rfl
  | cmpAbx addr => exact .cmp _ (.mem (.abx addr)) rfl
  | cmpAby addr => exact .cmp _ (.mem (.aby addr)) rfl
  | cmpIzx d8 => exact .cmp _ (.mem (.izx d8)) rfl
  | cmpIzy d8 => exact .cmp _ (.mem (.izy d8)) rfl
  | cpxImm d8 => exact .cpx _ (.imm d8) rfl
  | cpxZp d8 => exact .cpx _ (.mem (.zp d8)) rfl
  | cpxAbs addr => exact .cpx _ (.mem (.abs addr)) rfl
  | cpyImm d8 => exact .cpy _ (.imm d8) rfl
  | cpyZp d8 => exact .cpy _ (.mem (.zp d8)) rfl
  | cpyAbs addr => exact .cpy _ (.mem (.abs addr)) rfl
  | bpl d8 => exact .bpl _ d8 rfl
  | bmi d8 => exact .bmi _ d8 rfl
  | bvc d8 => exact .bvc _ d8 rfl
  | bvs d8 => exact .bvs _ d8 rfl
  | bcc d8 => exact .bcc _ d8 rfl
  | bcs d8 => exact .bcs _ d8 rfl
  | bne d8 => exact .bne _ d8 rfl
  | beq d8 => exact .beq _ d8 rfl
  | jmpAbs addr => exact .jmpAbs _ addr rfl
  | jmpInd addr => exact .jmpInd _ addr rfl
  | jsr addr => exact .jsr _ addr rfl nofun
  | rts => exact .rts _ rfl
  | clc => exact .clc _ rfl
  | sec => exact .sec _ rfl
  | cli => exact .cli _ rfl
  | sei => exact .sei _ rfl
  | clv => exact .clv _ rfl
  | cld => exact .cld _ rfl
  | sed => exact .sed _ rfl
  | adcImm d8 => exact .adc _ (.imm d8) rfl
  | adcZp d8 => exact .adc _ (.mem (.zp d8)) rfl
  | adcZpx d8 => exact .adc _ (.mem (.zpx d8)) rfl
  | adcAbs addr => exact .adc _ (.mem (.abs addr)) rfl
  | adcAbx addr => exact .adc _ (.mem (.abx addr)) rfl
  | adcAby addr => exact .adc _ (.mem (.aby addr)) rfl
  | adcIzx d8 => exact .adc _ (.mem (.izx d8)) rfl
  | adcIzy d8 => exact .adc _ (.mem (.izy d8)) rfl
  | sbcImm d8 => exact .sbc _ (.imm d8) rfl
  | sbcZp d8 => exact .sbc _ (.mem (.zp d8)) rfl
  | sbcZpx d8 => exact .sbc _ (.mem (.zpx d8)) rfl
  | sbcAbs addr => exact .sbc _ (.mem (.abs addr)) rfl
  | sbcAbx addr => exact .sbc _ (.mem (.abx addr)) rfl
  | sbcAby addr => exact .sbc _ (.mem (.aby addr)) rfl
  | sbcIzx d8 => exact .sbc _ (.mem (.izx d8)) rfl
  | sbcIzy d8 => exact .sbc _ (.mem (.izy d8)) rfl
  | andImm d8 => exact .and _ (.imm d8) rfl
  | andZp d8 => exact .and _ (.mem (.zp d8)) rfl
  | andZpx d8 => exact .and _ (.mem (.zpx d8)) rfl
  | andAbs addr => exact .and _ (.mem (.abs addr)) rfl
  | andAbx addr => exact .and _ (.mem (.abx addr)) rfl
  | andAby addr => exact .and _ (.mem (.aby addr)) rfl
  | andIzx d8 => exact .and _ (.mem (.izx d8)) rfl
  | andIzy d8 => exact .and _ (.mem (.izy d8)) rfl
  | oraImm d8 => exact .ora _ (.imm d8) rfl
  | oraZp d8 => exact .ora _ (.mem (.zp d8)) rfl
  | oraZpx d8 => exact .ora _ (.mem (.zpx d8)) rfl
  | oraAbs addr => exact .ora _ (.mem (.abs addr)) rfl
  | oraAbx addr => exact .ora _ (.mem (.abx addr)) rfl
  | oraAby addr => exact .ora _ (.mem (.aby addr)) rfl
  | oraIzx d8 => exact .ora _ (.mem (.izx d8)) rfl
  | oraIzy d8 => exact .ora _ (.mem (.izy d8)) rfl
  | eorImm d8 => exact .eor _ (.imm d8) rfl
  | eorZp d8 => exact .eor _ (.mem (.zp d8)) rfl
  | eorZpx d8 => exact .eor _ (.mem (.zpx d8)) rfl
  | eorAbs addr => exact .eor _ (.mem (.abs addr)) rfl
  | eorAbx addr => exact .eor _ (.mem (.abx addr)) rfl
  | eorAby addr => exact .eor _ (.mem (.aby addr)) rfl
  | eorIzx d8 => exact .eor _ (.mem (.izx d8)) rfl
  | eorIzy d8 => exact .eor _ (.mem (.izy d8)) rfl
  | bitZp d8 => exact .bit _ (.zp d8) rfl
  | bitAbs addr => exact .bit _ (.abs addr) rfl
  | aslAcc => exact .aslAcc _ rfl rfl
  | aslZp d8 => exact .aslMem _ (.zp d8) rfl nofun
  | aslZpx d8 => exact .aslMem _ (.zpx d8) rfl nofun
  | aslAbs addr => exact .aslMem _ (.abs addr) rfl nofun
  | aslAbx addr => exact .aslMem _ (.abx addr) rfl nofun
  | lsrAcc => exact .lsrAcc _ rfl rfl
  | lsrZp d8 => exact .lsrMem _ (.zp d8) rfl nofun
  | lsrZpx d8 => exact .lsrMem _ (.zpx d8) rfl nofun
  | lsrAbs addr => exact .lsrMem _ (.abs addr) rfl nofun
  | lsrAbx addr => exact .lsrMem _ (.abx addr) rfl nofun
  | rolAcc => exact .rolAcc _ rfl rfl
  | rolZp d8 => exact .rolMem _ (.zp d8) rfl nofun
  | rolZpx d8 => exact .rolMem _ (.zpx d8) rfl nofun
  | rolAbs addr => exact .rolMem _ (.abs addr) rfl nofun
  | rolAbx addr => exact .rolMem _ (.abx addr) rfl nofun
  | rorAcc => exact .rorAcc _ rfl rfl
  | rorZp d8 => exact .rorMem _ (.zp d8) rfl nofun
  | rorZpx d8 => exact .rorMem _ (.zpx d8) rfl nofun
  | rorAbs addr => exact .rorMem _ (.abs addr) rfl nofun
  | rorAbx addr => exact .rorMem _ (.abx addr) rfl nofun
  | pha => exact .pha _ rfl nofun
  | pla => exact .pla _ rfl
  | php => exact .php _ rfl nofun
  | plp => exact .plp _ rfl
  | brk => exact .brk _ rfl nofun
  | rti => exact .rti _ rfl
  | nop => exact .nop _ rfl
  | unimpl opcode => exact .unimpl opcode

end Sys2Proof.Machine
end

