-- ==== Sys2Proof/Laws/Meanings.lean ====
section
/-! SUPPORT. One equation per shared meaning: everything it does, as one record update of the state it starts from. -/

namespace Sys2Proof.Machine

section Source
variable (o : Source) (s : State)

theorem loadA_eq : loadA o s = { s with
    a := (o.value s).1, p := s.p.setNZ (o.value s).1, bus := (o.value s).2.bus, out := (o.value s).2.out } := by
  simp only [loadA]; rw [Source.value_state]

theorem loadX_eq : loadX o s = { s with
    x := (o.value s).1, p := s.p.setNZ (o.value s).1, bus := (o.value s).2.bus, out := (o.value s).2.out } := by
  simp only [loadX]; rw [Source.value_state]

theorem loadY_eq : loadY o s = { s with
    y := (o.value s).1, p := s.p.setNZ (o.value s).1, bus := (o.value s).2.bus, out := (o.value s).2.out } := by
  simp only [loadY]; rw [Source.value_state]

theorem compareWith_eq (r : Byte) : compareWith r o s = { s with
    p := s.p.compare r (o.value s).1, bus := (o.value s).2.bus, out := (o.value s).2.out } := by
  simp only [compareWith]; rw [Source.value_state]

theorem addWithCarry_eq : addWithCarry o s = { s with
    a := (s.p.addCore s.a (o.value s).1).1, p := (s.p.addCore s.a (o.value s).1).2,
    bus := (o.value s).2.bus, out := (o.value s).2.out } := by
  simp only [addWithCarry, addToA]; rw [Source.value_state]

theorem subtractWithBorrow_eq : subtractWithBorrow o s = { s with
    a := (s.p.addCore s.a ((o.value s).1 ^^^ 0xFF)).1, p := (s.p.addCore s.a ((o.value s).1 ^^^ 0xFF)).2,
    bus := (o.value s).2.bus, out := (o.value s).2.out } := by
  simp only [subtractWithBorrow, addToA]; rw [Source.value_state]

theorem logicA_eq (f : Byte → Byte → Byte) : logicA f o s = { s with
    a := f s.a (o.value s).1, p := s.p.setNZ (f s.a (o.value s).1), bus := (o.value s).2.bus, out := (o.value s).2.out } := by
  simp only [logicA]; rw [Source.value_state]

end Source

section MemMode
variable (m : MemMode) (s : State)

theorem testBits_eq : testBits m s = { s with
    p := s.p.bitTest s.a ((m.busAfter s).peek (m.resolve s).1),
    bus := ((Source.mem m).value s).2.bus, out := ((Source.mem m).value s).2.out } := by
  simp only [testBits, Source.value_mem]

theorem store_eq (v : Byte) : store m v s = { s with
    bus := (m.busAfter s).write (m.resolve s).1 v,
    out := { s.out with accesses := s.out.accesses ++ m.pointerReads s ++ [.write (m.resolve s).1 v] } } := by
  simp only [store, State.memWrite, State.logged, MemMode.resolve_state]

theorem addToMemory_eq (d : Byte) : addToMemory d m s =
    let addr := (m.resolve s).1
    let old := (m.busAfter s).peek addr
    { s with
      p := s.p.setNZ (old + d), bus := ((m.busAfter s).read addr).2.write addr (old + d),
      out := { s.out with
        accesses := s.out.accesses ++ m.pointerReads s ++ [.read addr old] ++ [.write addr (old + d)] } } := by
  simp only [addToMemory, State.modify_eq]

variable (f : Byte → Bool → Byte × Bool)

theorem shiftTarget_acc : shiftTarget f .acc s = { s with
    a := (f s.a s.p.c).1, p := { s.p with c := (f s.a s.p.c).2 }.setNZ (f s.a s.p.c).1 } := rfl

theorem shiftTarget_mem : shiftTarget f (.mem m) s =
    let addr := (m.resolve s).1
    let old := (m.busAfter s).peek addr
    let r := f old s.p.c
    { s with
      p := { s.p with c := r.2 }.setNZ r.1, bus := ((m.busAfter s).read addr).2.write addr r.1,
      out := { s.out with
        accesses := s.out.accesses ++ m.pointerReads s ++ [.read addr old] ++ [.write addr r.1] } } := by
  simp only [shiftTarget, State.modify_eq]

end MemMode

/-- A branch writes PC and nothing else. -/
theorem branchIf_eq (taken : Bool) (d8 : Byte) (s : State) :
    branchIf taken d8 s = { s with pc := if taken then branchTarget d8 s else s.pc } := by
  unfold branchIf; split <;> rfl

end Sys2Proof.Machine
end

