-- ==== Sys2Proof/Laws/PerInstr.lean ====
section
/-! SUPPORT. The family EncodeLength: the bytes of an instruction are as many as its row's mode says (30_encoding R70, R72). -/

namespace Sys2Proof.Laws.EncodeLength

/-- The encoding of an instruction has the length of its mode. -/
def Statement (i : Instr) : Prop := (encode i).length = i.length

theorem ldaImm (d8 : Byte) : Statement (.ldaImm d8) := rfl
theorem ldaZp (d8 : Byte) : Statement (.ldaZp d8) := rfl
theorem ldaZpx (d8 : Byte) : Statement (.ldaZpx d8) := rfl
theorem ldaAbs (addr : Word) : Statement (.ldaAbs addr) := rfl
theorem ldaAbx (addr : Word) : Statement (.ldaAbx addr) := rfl
theorem ldaAby (addr : Word) : Statement (.ldaAby addr) := rfl
theorem ldaIzx (d8 : Byte) : Statement (.ldaIzx d8) := rfl
theorem ldaIzy (d8 : Byte) : Statement (.ldaIzy d8) := rfl
theorem ldxImm (d8 : Byte) : Statement (.ldxImm d8) := rfl
theorem ldxZp (d8 : Byte) : Statement (.ldxZp d8) := rfl
theorem ldxZpy (d8 : Byte) : Statement (.ldxZpy d8) := rfl
theorem ldxAbs (addr : Word) : Statement (.ldxAbs addr) := rfl
theorem ldxAby (addr : Word) : Statement (.ldxAby addr) := rfl
theorem ldyImm (d8 : Byte) : Statement (.ldyImm d8) := rfl
theorem ldyZp (d8 : Byte) : Statement (.ldyZp d8) := rfl
theorem ldyZpx (d8 : Byte) : Statement (.ldyZpx d8) := rfl
theorem ldyAbs (addr : Word) : Statement (.ldyAbs addr) := rfl
theorem ldyAbx (addr : Word) : Statement (.ldyAbx addr) := rfl
theorem staZp (d8 : Byte) : Statement (.staZp d8) := rfl
theorem staZpx (d8 : Byte) : Statement (.staZpx d8) := rfl
theorem staAbs (addr : Word) : Statement (.staAbs addr) := rfl
theorem staAbx (addr : Word) : Statement (.staAbx addr) := rfl
theorem staAby (addr : Word) : Statement (.staAby addr) := rfl
theorem staIzx (d8 : Byte) : Statement (.staIzx d8) := rfl
theorem staIzy (d8 : Byte) : Statement (.staIzy d8) := rfl
theorem stxZp (d8 : Byte) : Statement (.stxZp d8) := rfl
theorem stxZpy (d8 : Byte) : Statement (.stxZpy d8) := rfl
theorem stxAbs (addr : Word) : Statement (.stxAbs addr) := rfl
theorem styZp (d8 : Byte) : Statement (.styZp d8) := rfl
theorem styZpx (d8 : Byte) : Statement (.styZpx d8) := rfl
theorem styAbs (addr : Word) : Statement (.styAbs addr) := rfl
theorem tax : Statement .tax := rfl
theorem tay : Statement .tay := rfl
theorem txa : Statement .txa := rfl
theorem tya : Statement .tya := rfl
theorem tsx : Statement .tsx := rfl
theorem txs : Statement .txs := rfl
theorem inx : Statement .inx := rfl
theorem iny : Statement .iny := rfl
theorem dex : Statement .dex := rfl
theorem dey : Statement .dey := rfl
theorem incZp (d8 : Byte) : Statement (.incZp d8) := rfl
theorem incZpx (d8 : Byte) : Statement (.incZpx d8) := rfl
theorem incAbs (addr : Word) : Statement (.incAbs addr) := rfl
theorem incAbx (addr : Word) : Statement (.incAbx addr) := rfl
theorem decZp (d8 : Byte) : Statement (.decZp d8) := rfl
theorem decZpx (d8 : Byte) : Statement (.decZpx d8) := rfl
theorem decAbs (addr : Word) : Statement (.decAbs addr) := rfl
theorem decAbx (addr : Word) : Statement (.decAbx addr) := rfl
theorem cmpImm (d8 : Byte) : Statement (.cmpImm d8) := rfl
theorem cmpZp (d8 : Byte) : Statement (.cmpZp d8) := rfl
theorem cmpZpx (d8 : Byte) : Statement (.cmpZpx d8) := rfl
theorem cmpAbs (addr : Word) : Statement (.cmpAbs addr) := rfl
theorem cmpAbx (addr : Word) : Statement (.cmpAbx addr) := rfl
theorem cmpAby (addr : Word) : Statement (.cmpAby addr) := rfl
theorem cmpIzx (d8 : Byte) : Statement (.cmpIzx d8) := rfl
theorem cmpIzy (d8 : Byte) : Statement (.cmpIzy d8) := rfl
theorem cpxImm (d8 : Byte) : Statement (.cpxImm d8) := rfl
theorem cpxZp (d8 : Byte) : Statement (.cpxZp d8) := rfl
theorem cpxAbs (addr : Word) : Statement (.cpxAbs addr) := rfl
theorem cpyImm (d8 : Byte) : Statement (.cpyImm d8) := rfl
theorem cpyZp (d8 : Byte) : Statement (.cpyZp d8) := rfl
theorem cpyAbs (addr : Word) : Statement (.cpyAbs addr) := rfl
theorem bpl (d8 : Byte) : Statement (.bpl d8) := rfl
theorem bmi (d8 : Byte) : Statement (.bmi d8) := rfl
theorem bvc (d8 : Byte) : Statement (.bvc d8) := rfl
theorem bvs (d8 : Byte) : Statement (.bvs d8) := rfl
theorem bcc (d8 : Byte) : Statement (.bcc d8) := rfl
theorem bcs (d8 : Byte) : Statement (.bcs d8) := rfl
theorem bne (d8 : Byte) : Statement (.bne d8) := rfl
theorem beq (d8 : Byte) : Statement (.beq d8) := rfl
theorem jmpAbs (addr : Word) : Statement (.jmpAbs addr) := rfl
theorem jmpInd (addr : Word) : Statement (.jmpInd addr) := rfl
theorem jsr (addr : Word) : Statement (.jsr addr) := rfl
theorem rts : Statement .rts := rfl
theorem clc : Statement .clc := rfl
theorem sec : Statement .sec := rfl
theorem cli : Statement .cli := rfl
theorem sei : Statement .sei := rfl
theorem clv : Statement .clv := rfl
theorem cld : Statement .cld := rfl
theorem sed : Statement .sed := rfl
theorem adcImm (d8 : Byte) : Statement (.adcImm d8) := rfl
theorem adcZp (d8 : Byte) : Statement (.adcZp d8) := rfl
theorem adcZpx (d8 : Byte) : Statement (.adcZpx d8) := rfl
theorem adcAbs (addr : Word) : Statement (.adcAbs addr) := rfl
theorem adcAbx (addr : Word) : Statement (.adcAbx addr) := rfl
theorem adcAby (addr : Word) : Statement (.adcAby addr) := rfl
theorem adcIzx (d8 : Byte) : Statement (.adcIzx d8) := rfl
theorem adcIzy (d8 : Byte) : Statement (.adcIzy d8) := rfl
theorem sbcImm (d8 : Byte) : Statement (.sbcImm d8) := rfl
theorem sbcZp (d8 : Byte) : Statement (.sbcZp d8) := rfl
theorem sbcZpx (d8 : Byte) : Statement (.sbcZpx d8) := rfl
theorem sbcAbs (addr : Word) : Statement (.sbcAbs addr) := rfl
theorem sbcAbx (addr : Word) : Statement (.sbcAbx addr) := rfl
theorem sbcAby (addr : Word) : Statement (.sbcAby addr) := rfl
theorem sbcIzx (d8 : Byte) : Statement (.sbcIzx d8) := rfl
theorem sbcIzy (d8 : Byte) : Statement (.sbcIzy d8) := rfl
theorem andImm (d8 : Byte) : Statement (.andImm d8) := rfl
theorem andZp (d8 : Byte) : Statement (.andZp d8) := rfl
theorem andZpx (d8 : Byte) : Statement (.andZpx d8) := rfl
theorem andAbs (addr : Word) : Statement (.andAbs addr) := rfl
theorem andAbx (addr : Word) : Statement (.andAbx addr) := rfl
theorem andAby (addr : Word) : Statement (.andAby addr) := rfl
theorem andIzx (d8 : Byte) : Statement (.andIzx d8) := rfl
theorem andIzy (d8 : Byte) : Statement (.andIzy d8) := rfl
theorem oraImm (d8 : Byte) : Statement (.oraImm d8) := rfl
theorem oraZp (d8 : Byte) : Statement (.oraZp d8) := rfl
theorem oraZpx (d8 : Byte) : Statement (.oraZpx d8) := rfl
theorem oraAbs (addr : Word) : Statement (.oraAbs addr) := rfl
theorem oraAbx (addr : Word) : Statement (.oraAbx addr) := rfl
theorem oraAby (addr : Word) : Statement (.oraAby addr) := rfl
theorem oraIzx (d8 : Byte) : Statement (.oraIzx d8) := rfl
theorem oraIzy (d8 : Byte) : Statement (.oraIzy d8) := rfl
theorem eorImm (d8 : Byte) : Statement (.eorImm d8) := rfl
theorem eorZp (d8 : Byte) : Statement (.eorZp d8) := rfl
theorem eorZpx (d8 : Byte) : Statement (.eorZpx d8) := rfl
theorem eorAbs (addr : Word) : Statement (.eorAbs addr) := rfl
theorem eorAbx (addr : Word) : Statement (.eorAbx addr) := rfl
theorem eorAby (addr : Word) : Statement (.eorAby addr) := rfl
theorem eorIzx (d8 : Byte) : Statement (.eorIzx d8) := rfl
theorem eorIzy (d8 : Byte) : Statement (.eorIzy d8) := rfl
theorem bitZp (d8 : Byte) : Statement (.bitZp d8) := rfl
theorem bitAbs (addr : Word) : Statement (.bitAbs addr) := rfl
theorem aslAcc : Statement .aslAcc := rfl
theorem aslZp (d8 : Byte) : Statement (.aslZp d8) := rfl
theorem aslZpx (d8 : Byte) : Statement (.aslZpx d8) := rfl
theorem aslAbs (addr : Word) : Statement (.aslAbs addr) := rfl
theorem aslAbx (addr : Word) : Statement (.aslAbx addr) := rfl
theorem lsrAcc : Statement .lsrAcc := rfl
theorem lsrZp (d8 : Byte) : Statement (.lsrZp d8) := rfl
theorem lsrZpx (d8 : Byte) : Statement (.lsrZpx d8) := rfl
theorem lsrAbs (addr : Word) : Statement (.lsrAbs addr) := rfl
theorem lsrAbx (addr : Word) : Statement (.lsrAbx addr) := rfl
theorem rolAcc : Statement .rolAcc := rfl
theorem rolZp (d8 : Byte) : Statement (.rolZp d8) := rfl
theorem rolZpx (d8 : Byte) : Statement (.rolZpx d8) := rfl
theorem rolAbs (addr : Word) : Statement (.rolAbs addr) := rfl
theorem rolAbx (addr : Word) : Statement (.rolAbx addr) := rfl
theorem rorAcc : Statement .rorAcc := rfl
theorem rorZp (d8 : Byte) : Statement (.rorZp d8) := rfl
theorem rorZpx (d8 : Byte) : Statement (.rorZpx d8) := rfl
theorem rorAbs (addr : Word) : Statement (.rorAbs addr) := rfl
theorem rorAbx (addr : Word) : Statement (.rorAbx addr) := rfl
theorem pha : Statement .pha := rfl
theorem pla : Statement .pla := rfl
theorem php : Statement .php := rfl
theorem plp : Statement .plp := rfl
theorem brk : Statement .brk := rfl
theorem rti : Statement .rti := rfl
theorem nop : Statement .nop := rfl
theorem unimpl (opcode : Byte) : Statement (.unimpl opcode) := rfl

end Sys2Proof.Laws.EncodeLength
end

