-- ==== Sys2Proof/Laws/Step.lean ====
section
/-! SUPPORT. One equation of the step per kind of table entry (40_execution_and_addressing R90): which bytes it fetches, and the state
the meaning starts from. -/

namespace Sys2Proof.Machine

/-- The state a meaning starts from: PC past the bytes of the instruction, the bus after the fetches, the fetches on the list, the
cycle count set. -/
def State.fetched (s : State) (i : Instr) (pc : Word) (b : Bus) (accesses : List BusAccess) : State :=
  { s with pc := pc, bus := b, out := { cycles := i.baseCycles, accesses := accesses } }

/-- The bus after `n` reads in ascending order from PC on: what a step has fetched from. -/
def State.busPast (s : State) : Nat → Bus
  | 0 => s.bus
  | n + 1 => ((s.busPast n).read (s.pc + BitVec.ofNat 16 n)).2

/-- Byte `n` from PC on, as the bus gives it after the bytes before it. -/
def State.byteAt (s : State) (n : Nat) : Byte := (s.busPast n).peek (s.pc + BitVec.ofNat 16 n)

/-- The listed fetches of the first `n` bytes. -/
def State.fetches (s : State) (n : Nat) : List BusAccess :=
  (List.range n).map fun k => .read (s.pc + BitVec.ofNat 16 k) (s.byteAt k)

section
variable {s : State}

theorem State.byteAt_zero : s.byteAt 0 = s.bus.peek s.pc := by simp [State.byteAt, State.busPast]

theorem fetchInstr_f1 {i : Instr} (h : entryOf (s.byteAt 0) = .f1 i) :
    s.beginStep.fetchInstr.1 = i ∧
    s.beginStep.fetchInstr.2.returning i.baseCycles = s.fetched i (s.pc + 1) (s.busPast 1) (s.fetches 1) := by
  simp only [State.byteAt_zero] at h
  simp [State.fetchInstr, State.fetch_eq, State.beginStep, State.returning, h, State.fetched, State.busPast, State.fetches,
    State.byteAt, List.range, List.range.loop]

theorem fetchInstr_f2 {make : Byte → Instr} (h : entryOf (s.byteAt 0) = .f2 make) :
    let i := make (s.byteAt 1)
    s.beginStep.fetchInstr.1 = i ∧
    s.beginStep.fetchInstr.2.returning i.baseCycles = s.fetched i (s.pc + 2) (s.busPast 2) (s.fetches 2) := by
  simp only [State.byteAt_zero] at h
  simp [State.fetchInstr, State.fetch_eq, State.beginStep, State.returning, h, State.fetched, State.busPast, State.fetches,
    State.byteAt, List.range, List.range.loop, BitVec.add_assoc]

theorem fetchInstr_f3 {make : Word → Instr} (h : entryOf (s.byteAt 0) = .f3 make) :
    let i := make (joinBytes (s.byteAt 2) (s.byteAt 1))
    s.beginStep.fetchInstr.1 = i ∧
    s.beginStep.fetchInstr.2.returning i.baseCycles = s.fetched i (s.pc + 3) (s.busPast 3) (s.fetches 3) := by
  simp only [State.byteAt_zero] at h
  simp [State.fetchInstr, State.fetch_eq, State.beginStep, State.returning, h, State.fetched, State.busPast, State.fetches,
    State.byteAt, List.range, List.range.loop, BitVec.add_assoc]

theorem fetchInstr_marker (h : entryOf (s.byteAt 0) = .unimpl) :
    let i := Instr.unimpl (s.byteAt 0)
    s.beginStep.fetchInstr.1 = i ∧
    s.beginStep.fetchInstr.2.returning i.baseCycles = s.fetched i (s.pc + 1) (s.busPast 1) (s.fetches 1) := by
  simp only [State.byteAt_zero] at h ⊢
  simp [State.fetchInstr, State.fetch_eq, State.beginStep, State.returning, h, State.fetched, State.busPast, State.fetches,
    State.byteAt, List.range, List.range.loop]

/-- A step is its fetched instruction on the state the fetch leaves. -/
theorem step_of_fetch {i : Instr} {t : State}
    (h : s.beginStep.fetchInstr.1 = i ∧ s.beginStep.fetchInstr.2.returning i.baseCycles = t) : step s = exec i t := by
  simp only [step, h.1, h.2]

/-- The terminal case: the marker's row faults with the byte and its address (R217). -/
theorem step_marker (h : entryOf (s.byteAt 0) = .unimpl) :
    step s = .fault (.unimplementedOpcode (s.byteAt 0) s.pc) := by
  rw [step_of_fetch (fetchInstr_marker h)]
  simp [exec, execUnimpl, State.fetched]

end

end Sys2Proof.Machine
end

