-- ==== Sys2Proof/Tests/Slice0.lean ====
section
/-! SUPPORT. The model's own tests: words written out bit by bit from the `encoding` column of spec/opcode_table.json (the operand bits
are free choices), single steps with the results of the spec's own worked examples, and for each obligation with hypotheses a concrete
witness that meets them together. -/

namespace Sys2Proof.Tests

open Sys2Proof.Machine

/-! ## Well-formedness -/

/-- The one check of `Instr.wf`: an official opcode byte is no unimplemented byte (R77). -/
theorem test_wf_refuses_official_byte : (Instr.unimpl 0xA9).wf = false := by decide

theorem test_wf_accepts : (Instr.unimpl 0x02).wf = true ∧ (Instr.unimpl 0xFF).wf = true ∧ (Instr.jsr 0xFFFF).wf = true := by decide

/-! ## Decoding: every constructor, by family -/

theorem test_decode_lda :
    decode [0b10101001, 0b10011100] = .ok (.ldaImm 0x9C, []) ∧
    decode [0b10100101, 0b10011100] = .ok (.ldaZp 0x9C, []) ∧
    decode [0b10110101, 0b10011100] = .ok (.ldaZpx 0x9C, []) ∧
    decode [0b10101101, 0b11110000, 0b00010010] = .ok (.ldaAbs 0x12F0, []) ∧
    decode [0b10111101, 0b11110000, 0b00010010] = .ok (.ldaAbx 0x12F0, []) ∧
    decode [0b10111001, 0b11110000, 0b00010010] = .ok (.ldaAby 0x12F0, []) ∧
    decode [0b10100001, 0b10011100] = .ok (.ldaIzx 0x9C, []) ∧
    decode [0b10110001, 0b10011100] = .ok (.ldaIzy 0x9C, []) := ⟨rfl, rfl, rfl, rfl, rfl, rfl, rfl, rfl⟩

theorem test_decode_ldx :
    decode [0b10100010, 0b10011100] = .ok (.ldxImm 0x9C, []) ∧
    decode [0b10100110, 0b10011100] = .ok (.ldxZp 0x9C, []) ∧
    decode [0b10110110, 0b10011100] = .ok (.ldxZpy 0x9C, []) ∧
    decode [0b10101110, 0b11110000, 0b00010010] = .ok (.ldxAbs 0x12F0, []) ∧
    decode [0b10111110, 0b11110000, 0b00010010] = .ok (.ldxAby 0x12F0, []) := ⟨rfl, rfl, rfl, rfl, rfl⟩

theorem test_decode_ldy :
    decode [0b10100000, 0b10011100] = .ok (.ldyImm 0x9C, []) ∧
    decode [0b10100100, 0b10011100] = .ok (.ldyZp 0x9C, []) ∧
    decode [0b10110100, 0b10011100] = .ok (.ldyZpx 0x9C, []) ∧
    decode [0b10101100, 0b11110000, 0b00010010] = .ok (.ldyAbs 0x12F0, []) ∧
    decode [0b10111100, 0b11110000, 0b00010010] = .ok (.ldyAbx 0x12F0, []) := ⟨rfl, rfl, rfl, rfl, rfl⟩

theorem test_decode_sta :
    decode [0b10000101, 0b10011100] = .ok (.staZp 0x9C, []) ∧
    decode [0b10010101, 0b10011100] = .ok (.staZpx 0x9C, []) ∧
    decode [0b10001101, 0b11110000, 0b00010010] = .ok (.staAbs 0x12F0, []) ∧
    decode [0b10011101, 0b11110000, 0b00010010] = .ok (.staAbx 0x12F0, []) ∧
    decode [0b10011001, 0b11110000, 0b00010010] = .ok (.staAby 0x12F0, []) ∧
    decode [0b10000001, 0b10011100] = .ok (.staIzx 0x9C, []) ∧
    decode [0b10010001, 0b10011100] = .ok (.staIzy 0x9C, []) := ⟨rfl, rfl, rfl, rfl, rfl, rfl, rfl⟩

theorem test_decode_stx :
    decode [0b10000110, 0b10011100] = .ok (.stxZp 0x9C, []) ∧
    decode [0b10010110, 0b10011100] = .ok (.stxZpy 0x9C, []) ∧
    decode [0b10001110, 0b11110000, 0b00010010] = .ok (.stxAbs 0x12F0, []) := ⟨rfl, rfl, rfl⟩

theorem test_decode_sty :
    decode [0b10000100, 0b10011100] = .ok (.styZp 0x9C, []) ∧
    decode [0b10010100, 0b10011100] = .ok (.styZpx 0x9C, []) ∧
    decode [0b10001100, 0b11110000, 0b00010010] = .ok (.styAbs 0x12F0, []) := ⟨rfl, rfl, rfl⟩

theorem test_decode_tax :
    decode [0b10101010] = .ok (.tax, []) := rfl

theorem test_decode_tay :
    decode [0b10101000] = .ok (.tay, []) := rfl

theorem test_decode_txa :
    decode [0b10001010] = .ok (.txa, []) := rfl

theorem test_decode_tya :
    decode [0b10011000] = .ok (.tya, []) := rfl

theorem test_decode_tsx :
    decode [0b10111010] = .ok (.tsx, []) := rfl

theorem test_decode_txs :
    decode [0b10011010] = .ok (.txs, []) := rfl

theorem test_decode_inx :
    decode [0b11101000] = .ok (.inx, []) := rfl

theorem test_decode_iny :
    decode [0b11001000] = .ok (.iny, []) := rfl

theorem test_decode_dex :
    decode [0b11001010] = .ok (.dex, []) := rfl

theorem test_decode_dey :
    decode [0b10001000] = .ok (.dey, []) := rfl

theorem test_decode_inc :
    decode [0b11100110, 0b10011100] = .ok (.incZp 0x9C, []) ∧
    decode [0b11110110, 0b10011100] = .ok (.incZpx 0x9C, []) ∧
    decode [0b11101110, 0b11110000, 0b00010010] = .ok (.incAbs 0x12F0, []) ∧
    decode [0b11111110, 0b11110000, 0b00010010] = .ok (.incAbx 0x12F0, []) := ⟨rfl, rfl, rfl, rfl⟩

theorem test_decode_dec :
    decode [0b11000110, 0b10011100] = .ok (.decZp 0x9C, []) ∧
    decode [0b11010110, 0b10011100] = .ok (.decZpx 0x9C, []) ∧
    decode [0b11001110, 0b11110000, 0b00010010] = .ok (.decAbs 0x12F0, []) ∧
    decode [0b11011110, 0b11110000, 0b00010010] = .ok (.decAbx 0x12F0, []) := ⟨rfl, rfl, rfl, rfl⟩

theorem test_decode_cmp :
    decode [0b11001001, 0b10011100] = .ok (.cmpImm 0x9C, []) ∧
    decode [0b11000101, 0b10011100] = .ok (.cmpZp 0x9C, []) ∧
    decode [0b11010101, 0b10011100] = .ok (.cmpZpx 0x9C, []) ∧
    decode [0b11001101, 0b11110000, 0b00010010] = .ok (.cmpAbs 0x12F0, []) ∧
    decode [0b11011101, 0b11110000, 0b00010010] = .ok (.cmpAbx 0x12F0, []) ∧
    decode [0b11011001, 0b11110000, 0b00010010] = .ok (.cmpAby 0x12F0, []) ∧
    decode [0b11000001, 0b10011100] = .ok (.cmpIzx 0x9C, []) ∧
    decode [0b11010001, 0b10011100] = .ok (.cmpIzy 0x9C, []) := ⟨rfl, rfl, rfl, rfl, rfl, rfl, rfl, rfl⟩

theorem test_decode_cpx :
    decode [0b11100000, 0b10011100] = .ok (.cpxImm 0x9C, []) ∧
    decode [0b11100100, 0b10011100] = .ok (.cpxZp 0x9C, []) ∧
    decode [0b11101100, 0b11110000, 0b00010010] = .ok (.cpxAbs 0x12F0, []) := ⟨rfl, rfl, rfl⟩

theorem test_decode_cpy :
    decode [0b11000000, 0b10011100] = .ok (.cpyImm 0x9C, []) ∧
    decode [0b11000100, 0b10011100] = .ok (.cpyZp 0x9C, []) ∧
    decode [0b11001100, 0b11110000, 0b00010010] = .ok (.cpyAbs 0x12F0, []) := ⟨rfl, rfl, rfl⟩

theorem test_decode_bpl :
    decode [0b00010000, 0b10011100] = .ok (.bpl 0x9C, []) := rfl

theorem test_decode_bmi :
    decode [0b00110000, 0b10011100] = .ok (.bmi 0x9C, []) := rfl

theorem test_decode_bvc :
    decode [0b01010000, 0b10011100] = .ok (.bvc 0x9C, []) := rfl

theorem test_decode_bvs :
    decode [0b01110000, 0b10011100] = .ok (.bvs 0x9C, []) := rfl

theorem test_decode_bcc :
    decode [0b10010000, 0b10011100] = .ok (.bcc 0x9C, []) := rfl

theorem test_decode_bcs :
    decode [0b10110000, 0b10011100] = .ok (.bcs 0x9C, []) := rfl

theorem test_decode_bne :
    decode [0b11010000, 0b10011100] = .ok (.bne 0x9C, []) := rfl

theorem test_decode_beq :
    decode [0b11110000, 0b10011100] = .ok (.beq 0x9C, []) := rfl

theorem test_decode_jmp :
    decode [0b01001100, 0b11110000, 0b00010010] = .ok (.jmpAbs 0x12F0, []) ∧
    decode [0b01101100, 0b11110000, 0b00010010] = .ok (.jmpInd 0x12F0, []) := ⟨rfl, rfl⟩

theorem test_decode_jsr :
    decode [0b00100000, 0b11110000, 0b00010010] = .ok (.jsr 0x12F0, []) := rfl

theorem test_decode_rts :
    decode [0b01100000] = .ok (.rts, []) := rfl

theorem test_decode_clc :
    decode [0b00011000] = .ok (.clc, []) := rfl

theorem test_decode_sec :
    decode [0b00111000] = .ok (.sec, []) := rfl

theorem test_decode_cli :
    decode [0b01011000] = .ok (.cli, []) := rfl

theorem test_decode_sei :
    decode [0b01111000] = .ok (.sei, []) := rfl

theorem test_decode_clv :
    decode [0b10111000] = .ok (.clv, []) := rfl

theorem test_decode_cld :
    decode [0b11011000] = .ok (.cld, []) := rfl

theorem test_decode_sed :
    decode [0b11111000] = .ok (.sed, []) := rfl

theorem test_decode_adc :
    decode [0b01101001, 0b10011100] = .ok (.adcImm 0x9C, []) ∧
    decode [0b01100101, 0b10011100] = .ok (.adcZp 0x9C, []) ∧
    decode [0b01110101, 0b10011100] = .ok (.adcZpx 0x9C, []) ∧
    decode [0b01101101, 0b11110000, 0b00010010] = .ok (.adcAbs 0x12F0, []) ∧
    decode [0b01111101, 0b11110000, 0b00010010] = .ok (.adcAbx 0x12F0, []) ∧
    decode [0b01111001, 0b11110000, 0b00010010] = .ok (.adcAby 0x12F0, []) ∧
    decode [0b01100001, 0b10011100] = .ok (.adcIzx 0x9C, []) ∧
    decode [0b01110001, 0b10011100] = .ok (.adcIzy 0x9C, []) := ⟨rfl, rfl, rfl, rfl, rfl, rfl, rfl, rfl⟩

theorem test_decode_sbc :
    decode [0b11101001, 0b10011100] = .ok (.sbcImm 0x9C, []) ∧
    decode [0b11100101, 0b10011100] = .ok (.sbcZp 0x9C, []) ∧
    decode [0b11110101, 0b10011100] = .ok (.sbcZpx 0x9C, []) ∧
    decode [0b11101101, 0b11110000, 0b00010010] = .ok (.sbcAbs 0x12F0, []) ∧
    decode [0b11111101, 0b11110000, 0b00010010] = .ok (.sbcAbx 0x12F0, []) ∧
    decode [0b11111001, 0b11110000, 0b00010010] = .ok (.sbcAby 0x12F0, []) ∧
    decode [0b11100001, 0b10011100] = .ok (.sbcIzx 0x9C, []) ∧
    decode [0b11110001, 0b10011100] = .ok (.sbcIzy 0x9C, []) := ⟨rfl, rfl, rfl, rfl, rfl, rfl, rfl, rfl⟩

theorem test_decode_and :
    decode [0b00101001, 0b10011100] = .ok (.andImm 0x9C, []) ∧
    decode [0b00100101, 0b10011100] = .ok (.andZp 0x9C, []) ∧
    decode [0b00110101, 0b10011100] = .ok (.andZpx 0x9C, []) ∧
    decode [0b00101101, 0b11110000, 0b00010010] = .ok (.andAbs 0x12F0, []) ∧
    decode [0b00111101, 0b11110000, 0b00010010] = .ok (.andAbx 0x12F0, []) ∧
    decode [0b00111001, 0b11110000, 0b00010010] = .ok (.andAby 0x12F0, []) ∧
    decode [0b00100001, 0b10011100] = .ok (.andIzx 0x9C, []) ∧
    decode [0b00110001, 0b10011100] = .ok (.andIzy 0x9C, []) := ⟨rfl, rfl, rfl, rfl, rfl, rfl, rfl, rfl⟩

theorem test_decode_ora :
    decode [0b00001001, 0b10011100] = .ok (.oraImm 0x9C, []) ∧
    decode [0b00000101, 0b10011100] = .ok (.oraZp 0x9C, []) ∧
    decode [0b00010101, 0b10011100] = .ok (.oraZpx 0x9C, []) ∧
    decode [0b00001101, 0b11110000, 0b00010010] = .ok (.oraAbs 0x12F0, []) ∧
    decode [0b00011101, 0b11110000, 0b00010010] = .ok (.oraAbx 0x12F0, []) ∧
    decode [0b00011001, 0b11110000, 0b00010010] = .ok (.oraAby 0x12F0, []) ∧
    decode [0b00000001, 0b10011100] = .ok (.oraIzx 0x9C, []) ∧
    decode [0b00010001, 0b10011100] = .ok (.oraIzy 0x9C, []) := ⟨rfl, rfl, rfl, rfl, rfl, rfl, rfl, rfl⟩

theorem test_decode_eor :
    decode [0b01001001, 0b10011100] = .ok (.eorImm 0x9C, []) ∧
    decode [0b01000101, 0b10011100] = .ok (.eorZp 0x9C, []) ∧
    decode [0b01010101, 0b10011100] = .ok (.eorZpx 0x9C, []) ∧
    decode [0b01001101, 0b11110000, 0b00010010] = .ok (.eorAbs 0x12F0, []) ∧
    decode [0b01011101, 0b11110000, 0b00010010] = .ok (.eorAbx 0x12F0, []) ∧
    decode [0b01011001, 0b11110000, 0b00010010] = .ok (.eorAby 0x12F0, []) ∧
    decode [0b01000001, 0b10011100] = .ok (.eorIzx 0x9C, []) ∧
    decode [0b01010001, 0b10011100] = .ok (.eorIzy 0x9C, []) := ⟨rfl, rfl, rfl, rfl, rfl, rfl, rfl, rfl⟩

theorem test_decode_bit :
    decode [0b00100100, 0b10011100] = .ok (.bitZp 0x9C, []) ∧
    decode [0b00101100, 0b11110000, 0b00010010] = .ok (.bitAbs 0x12F0, []) := ⟨rfl, rfl⟩

theorem test_decode_asl :
    decode [0b00001010] = .ok (.aslAcc, []) ∧
    decode [0b00000110, 0b10011100] = .ok (.aslZp 0x9C, []) ∧
    decode [0b00010110, 0b10011100] = .ok (.aslZpx 0x9C, []) ∧
    decode [0b00001110, 0b11110000, 0b00010010] = .ok (.aslAbs 0x12F0, []) ∧
    decode [0b00011110, 0b11110000, 0b00010010] = .ok (.aslAbx 0x12F0, []) := ⟨rfl, rfl, rfl, rfl, rfl⟩

theorem test_decode_lsr :
    decode [0b01001010] = .ok (.lsrAcc, []) ∧
    decode [0b01000110, 0b10011100] = .ok (.lsrZp 0x9C, []) ∧
    decode [0b01010110, 0b10011100] = .ok (.lsrZpx 0x9C, []) ∧
    decode [0b01001110, 0b11110000, 0b00010010] = .ok (.lsrAbs 0x12F0, []) ∧
    decode [0b01011110, 0b11110000, 0b00010010] = .ok (.lsrAbx 0x12F0, []) := ⟨rfl, rfl, rfl, rfl, rfl⟩

theorem test_decode_rol :
    decode [0b00101010] = .ok (.rolAcc, []) ∧
    decode [0b00100110, 0b10011100] = .ok (.rolZp 0x9C, []) ∧
    decode [0b00110110, 0b10011100] = .ok (.rolZpx 0x9C, []) ∧
    decode [0b00101110, 0b11110000, 0b00010010] = .ok (.rolAbs 0x12F0, []) ∧
    decode [0b00111110, 0b11110000, 0b00010010] = .ok (.rolAbx 0x12F0, []) := ⟨rfl, rfl, rfl, rfl, rfl⟩

theorem test_decode_ror :
    decode [0b01101010] = .ok (.rorAcc, []) ∧
    decode [0b01100110, 0b10011100] = .ok (.rorZp 0x9C, []) ∧
    decode [0b01110110, 0b10011100] = .ok (.rorZpx 0x9C, []) ∧
    decode [0b01101110, 0b11110000, 0b00010010] = .ok (.rorAbs 0x12F0, []) ∧
    decode [0b01111110, 0b11110000, 0b00010010] = .ok (.rorAbx 0x12F0, []) := ⟨rfl, rfl, rfl, rfl, rfl⟩

theorem test_decode_pha :
    decode [0b01001000] = .ok (.pha, []) := rfl

theorem test_decode_pla :
    decode [0b01101000] = .ok (.pla, []) := rfl

theorem test_decode_php :
    decode [0b00001000] = .ok (.php, []) := rfl

theorem test_decode_plp :
    decode [0b00101000] = .ok (.plp, []) := rfl

theorem test_decode_brk :
    decode [0b00000000] = .ok (.brk, []) := rfl

theorem test_decode_rti :
    decode [0b01000000] = .ok (.rti, []) := rfl

theorem test_decode_nop :
    decode [0b11101010] = .ok (.nop, []) := rfl

/-- Three of the 105 unimplemented bytes (R77); an unimplemented byte takes no operand. -/
theorem test_decode_unimpl :
    decode [0b00000010, 0b00000001] = .ok (.unimpl 0x02, [0x01]) ∧ decode [0b11101011] = .ok (.unimpl 0xEB, []) ∧
    decode [0b11111111] = .ok (.unimpl 0xFF, []) := ⟨rfl, rfl, rfl⟩

theorem test_unimplemented_count : unimplementedBytes.length = 105 := by decide

/-- A list that ends before the instruction does is refused by name (log 11). -/
theorem test_decode_refuses :
    decode [] = .error .noOpcode ∧ decode [0xA9] = .error (.missingOperand 0xA9) ∧
    decode [0x20, 0x00] = .error (.missingOperand 0x20) := ⟨rfl, rfl, rfl⟩

/-- Table words: bits 7:0 are the first byte; the bits above `nbits` are zero. -/
theorem test_table_words :
    decodeTableWord 16 0x80A9 = some (.ldaImm 0x80) ∧ decodeTableWord 8 0x80A9 = some (.ldaImm 0x00) ∧
    decodeTableWord 24 0x123420 = some (.jsr 0x1234) ∧ decodeTableWord 8 0x02 = some (.unimpl 0x02) := by decide

/-! ## Steps -/

/-- The default start of spec/95: reset with every unspecified register drawn as 0, PC at 0x8000, flat RAM with the listed bytes. -/
def start (cells : Memory) : State := { State.reset with pc := 0x8000, bus := { Bus.flat with mem := cells } }

/-- Whether a step completes in a state that passes a check. -/
def stepsTo (s : State) (check : State → Bool) : Bool :=
  match step s with
  | .next t => check t
  | _ => false

/-- R120. -/
theorem test_lda_imm :
    stepsTo { start [(0x8000, 0xA9), (0x8001, 0x80)] with a := 0x01 }
      (fun t => t.a == 0x80 && t.p.n && !t.p.z && t.pc == 0x8002 && t.out.cycles == some 2) = true := by decide

/-- R97. -/
theorem test_lda_zpx_wraps :
    stepsTo { start [(0x0010, 0x5A), (0x0110, 0xEE), (0x8000, 0xB5), (0x8001, 0xF0)] with x := 0x20 }
      (fun t => t.a == 0x5A && t.pc == 0x8002) = true := by decide

/-- R104. -/
theorem test_lda_izx :
    stepsTo { start [(0x0025, 0x30), (0x3000, 0x77), (0x8000, 0xA1), (0x8001, 0x20)] with x := 0x04 }
      (fun t => t.a == 0x77) = true := by decide

/-- R105. -/
theorem test_lda_izy_carries :
    stepsTo { start [(0x0020, 0xF8), (0x0021, 0x30), (0x3108, 0x33), (0x8000, 0xB1), (0x8001, 0x20)] with y := 0x10 }
      (fun t => t.a == 0x33) = true := by decide

/-- R101. -/
theorem test_lda_abx_wraps :
    stepsTo { start [(0x0001, 0x44), (0x8000, 0xBD), (0x8001, 0xFF), (0x8002, 0xFF)] with x := 0x02 }
      (fun t => t.a == 0x44 && t.pc == 0x8003) = true := by decide

/-- R121. -/
theorem test_ldx_imm :
    stepsTo { start [(0x8000, 0xA2)] with x := 0x55 }
      (fun t => t.x == 0x00 && t.p.z && !t.p.n && t.out.cycles == some 2) = true := by decide

/-- R98. -/
theorem test_ldx_zpy_wraps :
    stepsTo { start [(0x0001, 0x21), (0x8000, 0xB6), (0x8001, 0xFF)] with y := 0x02 }
      (fun t => t.x == 0x21) = true := by decide

/-- R122. -/
theorem test_ldy_zp :
    stepsTo (start [(0x0010, 0x7F), (0x8000, 0xA4), (0x8001, 0x10)])
      (fun t => t.y == 0x7F && !t.p.n && !t.p.z && t.out.cycles == some 3) = true := by decide

/-- R123. -/
theorem test_sta_abs :
    stepsTo { start [(0x8000, 0x8D), (0x8002, 0x02)] with a := 0x42 }
      (fun t => t.bus.peek 0x0200 == 0x42 && t.p == (start []).p && t.out.cycles == some 4) = true := by decide

/-- R124, the source's store round trip. -/
theorem test_stx_zp :
    stepsTo { start [(0x8000, 0x86), (0x8001, 0x90)] with x := 0x89 }
      (fun t => t.bus.peek 0x0090 == 0x89 && t.x == 0x89 && t.out.cycles == some 3) = true := by decide

/-- R125. -/
theorem test_sty_zpx :
    stepsTo { start [(0x8000, 0x94), (0x8001, 0x10)] with x := 0xF5, y := 0x07 }
      (fun t => t.bus.peek 0x0005 == 0x07 && t.out.cycles == some 4) = true := by decide

/-- R130. -/
theorem test_tax :
    stepsTo { start [(0x8000, 0xAA)] with a := 0x80, x := 0x01 }
      (fun t => t.x == 0x80 && t.p.n && !t.p.z) = true := by decide

/-- R131. -/
theorem test_tay :
    stepsTo { start [(0x8000, 0xA8)] with y := 0x55 }
      (fun t => t.y == 0x00 && t.p.z && !t.p.n) = true := by decide

/-- R132. -/
theorem test_txa :
    stepsTo { start [(0x8000, 0x8A)] with x := 0x7F, a := 0xFF }
      (fun t => t.a == 0x7F && !t.p.n && !t.p.z) = true := by decide

/-- R133. -/
theorem test_tya :
    stepsTo { start [(0x8000, 0x98)] with y := 0xC0 }
      (fun t => t.a == 0xC0 && t.p.n && !t.p.z) = true := by decide

/-- R134. -/
theorem test_tsx :
    stepsTo (start [(0x8000, 0xBA)])
      (fun t => t.x == 0xFD && t.sp == 0xFD && t.p.n && !t.p.z) = true := by decide

/-- R135. -/
theorem test_txs :
    stepsTo { start [(0x8000, 0x9A)] with x := 0xFF, p := { State.reset.p with z := true } }
      (fun t => t.sp == 0xFF && !t.p.n && t.p.z) = true := by decide

/-- R140. -/
theorem test_inx_wraps :
    stepsTo { start [(0x8000, 0xE8)] with x := 0xFF }
      (fun t => t.x == 0x00 && t.p.z && !t.p.n && !t.p.c) = true := by decide

/-- R141. -/
theorem test_iny :
    stepsTo (start [(0x8000, 0xC8)])
      (fun t => t.y == 0x01 && !t.p.n && !t.p.z) = true := by decide

/-- R142. -/
theorem test_dex_wraps :
    stepsTo (start [(0x8000, 0xCA)])
      (fun t => t.x == 0xFF && t.p.n && !t.p.z) = true := by decide

/-- R143. -/
theorem test_dey :
    stepsTo { start [(0x8000, 0x88)] with y := 0x02 }
      (fun t => t.y == 0x01 && !t.p.n && !t.p.z) = true := by decide

/-- R144. -/
theorem test_inc_zp :
    stepsTo (start [(0x0010, 0xFF), (0x8000, 0xE6), (0x8001, 0x10)])
      (fun t => t.bus.peek 0x0010 == 0x00 && t.p.z && !t.p.n && t.out.cycles == some 5) = true := by decide

/-- R145. -/
theorem test_dec_abs :
    stepsTo (start [(0x0200, 0x01), (0x8000, 0xCE), (0x8002, 0x02)])
      (fun t => t.bus.peek 0x0200 == 0x00 && t.p.z && !t.p.n && t.out.cycles == some 6) = true := by decide

/-- R150. -/
theorem test_cmp_imm :
    stepsTo { start [(0x8000, 0xC9), (0x8001, 0x30)] with a := 0x20 }
      (fun t => t.a == 0x20 && !t.p.c && !t.p.z && t.p.n) = true := by decide

/-- R151. -/
theorem test_cpx_imm :
    stepsTo { start [(0x8000, 0xE0), (0x8001, 0x10)] with x := 0x20 }
      (fun t => t.p.c && !t.p.z && !t.p.n) = true := by decide

/-- R152. -/
theorem test_cpy_zp :
    stepsTo (start [(0x0010, 0x01), (0x8000, 0xC4), (0x8001, 0x10)])
      (fun t => !t.p.c && !t.p.z && t.p.n) = true := by decide

/-- R156. -/
theorem test_bpl_taken :
    stepsTo { start [(0x8005, 0x10), (0x8006, 0xFB)] with pc := 0x8005 }
      (fun t => t.pc == 0x8002 && t.out.cycles == some 2) = true := by decide

/-- R157. -/
theorem test_bmi_not_taken :
    stepsTo (start [(0x8000, 0x30), (0x8001, 0x02)])
      (fun t => t.pc == 0x8002 && t.out.cycles == some 2) = true := by decide

/-- R158. -/
theorem test_bvc_taken :
    stepsTo (start [(0x8000, 0x50), (0x8001, 0x10)])
      (fun t => t.pc == 0x8012) = true := by decide

/-- R159. -/
theorem test_bvs_not_taken :
    stepsTo (start [(0x8000, 0x70), (0x8001, 0x10)])
      (fun t => t.pc == 0x8002) = true := by decide

/-- R160. -/
theorem test_bcc_taken :
    stepsTo (start [(0x8000, 0x90), (0x8001, 0x7F)])
      (fun t => t.pc == 0x8081) = true := by decide

/-- R161. -/
theorem test_bcs_taken :
    stepsTo { start [(0x8000, 0xB0), (0x8001, 0x80)] with p := { State.reset.p with c := true } }
      (fun t => t.pc == 0x7F82) = true := by decide

/-- R162. -/
theorem test_bne_taken :
    stepsTo { start [(0x8003, 0xD0), (0x8004, 0xFD)] with pc := 0x8003 }
      (fun t => t.pc == 0x8002) = true := by decide

/-- R99: offset 0x80 at 0x0010, on BEQ. -/
theorem test_beq_wraps :
    stepsTo { start [(0x0010, 0xF0), (0x0011, 0x80)] with pc := 0x0010, p := { State.reset.p with z := true } }
      (fun t => t.pc == 0xFF92) = true := by decide

/-- R170. -/
theorem test_jmp_abs :
    stepsTo (start [(0x8000, 0x4C), (0x8002, 0xC0)])
      (fun t => t.pc == 0xC000 && t.out.cycles == some 3) = true := by decide

/-- R170, R103. -/
theorem test_jmp_ind_page_wrap :
    stepsTo (start [(0x0200, 0x90), (0x0300, 0x80), (0x8000, 0x6C), (0x8001, 0xFF), (0x8002, 0x02)])
      (fun t => t.pc == 0x9000 && t.out.cycles == some 5) = true := by decide

/-- R171. -/
theorem test_jsr :
    stepsTo (start [(0x8000, 0x20), (0x8002, 0x90)])
      (fun t => t.pc == 0x9000 && t.sp == 0xFB && t.bus.peek 0x01FD == 0x80 && t.bus.peek 0x01FC == 0x02 &&
        t.out.cycles == some 6) = true := by decide

/-- R172. -/
theorem test_rts :
    stepsTo { start [(0x01FC, 0x02), (0x01FD, 0x80), (0x8000, 0x60)] with sp := 0xFB }
      (fun t => t.pc == 0x8003 && t.sp == 0xFD && t.out.cycles == some 6) = true := by decide

/-- R180. -/
theorem test_clc :
    stepsTo { start [(0x8000, 0x18)] with p := { State.reset.p with c := true } }
      (fun t => !t.p.c && t.pc == 0x8001) = true := by decide

/-- R181. -/
theorem test_sec :
    stepsTo { start [(0x8000, 0x38)] with p := { State.reset.p with c := false } }
      (fun t => t.p.c && t.pc == 0x8001) = true := by decide

/-- R182. -/
theorem test_cli :
    stepsTo { start [(0x8000, 0x58)] with p := { State.reset.p with i := true } }
      (fun t => !t.p.i && t.pc == 0x8001) = true := by decide

/-- R183. -/
theorem test_sei :
    stepsTo { start [(0x8000, 0x78)] with p := { State.reset.p with i := false } }
      (fun t => t.p.i && t.pc == 0x8001) = true := by decide

/-- R184. -/
theorem test_clv :
    stepsTo { start [(0x8000, 0xB8)] with p := { State.reset.p with v := true } }
      (fun t => !t.p.v && t.pc == 0x8001) = true := by decide

/-- R185. -/
theorem test_cld :
    stepsTo { start [(0x8000, 0xD8)] with p := { State.reset.p with d := true } }
      (fun t => !t.p.d && t.pc == 0x8001) = true := by decide

/-- R186. -/
theorem test_sed :
    stepsTo { start [(0x8000, 0xF8)] with p := { State.reset.p with d := false } }
      (fun t => t.p.d && t.pc == 0x8001) = true := by decide

/-- R191. -/
theorem test_adc_overflow :
    stepsTo { start [(0x8000, 0x69), (0x8001, 0x50)] with a := 0x50 }
      (fun t => t.a == 0xA0 && !t.p.c && t.p.v && t.p.n && !t.p.z) = true := by decide

/-- R191: 0xFF + 0xFF + 1. -/
theorem test_adc_carry_in :
    stepsTo { start [(0x8000, 0x69), (0x8001, 0xFF)] with a := 0xFF, p := { State.reset.p with c := true, d := true } }
      (fun t => t.a == 0xFF && t.p.c && !t.p.v && t.p.n) = true := by decide

/-- R192. -/
theorem test_sbc_overflow :
    stepsTo { start [(0x8000, 0xE9), (0x8001, 0xB0)] with a := 0x50, p := { State.reset.p with c := true } }
      (fun t => t.a == 0xA0 && !t.p.c && t.p.v && t.p.n && !t.p.z) = true := by decide

/-- R192: 0x00 - 0x00 with C = 0. -/
theorem test_sbc_borrow_in :
    stepsTo (start [(0x8000, 0xE9)])
      (fun t => t.a == 0xFF && !t.p.c && t.p.n) = true := by decide

/-- R193. -/
theorem test_and_imm :
    stepsTo { start [(0x8000, 0x29), (0x8001, 0x0F)] with a := 0xF0 }
      (fun t => t.a == 0x00 && t.p.z && !t.p.n) = true := by decide

/-- R194. -/
theorem test_ora_imm :
    stepsTo { start [(0x8000, 0x09), (0x8001, 0x80)] with a := 0x01 }
      (fun t => t.a == 0x81 && t.p.n && !t.p.z) = true := by decide

/-- R195. -/
theorem test_eor_imm :
    stepsTo { start [(0x8000, 0x49), (0x8001, 0xFF)] with a := 0x55 }
      (fun t => t.a == 0xAA && t.p.n && !t.p.z) = true := by decide

/-- R196. -/
theorem test_bit_zp :
    stepsTo { start [(0x0010, 0xC0), (0x8000, 0x24), (0x8001, 0x10)] with a := 0x01 }
      (fun t => t.a == 0x01 && t.p.z && t.p.n && t.p.v) = true := by decide

/-- R198. -/
theorem test_asl_acc :
    stepsTo { start [(0x8000, 0x0A)] with a := 0x81 }
      (fun t => t.a == 0x02 && t.p.c && !t.p.n && !t.p.z) = true := by decide

/-- R199. -/
theorem test_lsr_acc :
    stepsTo { start [(0x8000, 0x4A)] with a := 0x03 }
      (fun t => t.a == 0x01 && t.p.c && !t.p.n && !t.p.z) = true := by decide

/-- R200. -/
theorem test_rol_acc :
    stepsTo { start [(0x8000, 0x2A)] with a := 0x40, p := { State.reset.p with c := true } }
      (fun t => t.a == 0x81 && !t.p.c && t.p.n && !t.p.z) = true := by decide

/-- R201. -/
theorem test_ror_zp :
    stepsTo { start [(0x0010, 0x02), (0x8000, 0x66), (0x8001, 0x10)] with p := { State.reset.p with c := true } }
      (fun t => t.bus.peek 0x0010 == 0x81 && !t.p.c && t.p.n && !t.p.z && t.a == 0x00) = true := by decide

/-- R210. -/
theorem test_pha :
    stepsTo { start [(0x8000, 0x48)] with a := 0x42 }
      (fun t => t.bus.peek 0x01FD == 0x42 && t.sp == 0xFC) = true := by decide

/-- R211. -/
theorem test_pla :
    stepsTo { start [(0x8000, 0x68)] with sp := 0xFC, a := 0x42 }
      (fun t => t.a == 0x00 && t.sp == 0xFD && t.p.z && !t.p.n) = true := by decide

/-- R212. -/
theorem test_php :
    stepsTo { start [(0x8000, 0x08)] with p := { State.reset.p with z := true, c := true } }
      (fun t => t.bus.peek 0x01FD == 0x37 && t.sp == 0xFC) = true := by decide

/-- R213. -/
theorem test_plp :
    stepsTo { start [(0x01FD, 0xC3), (0x8000, 0x28)] with sp := 0xFC }
      (fun t => t.p.n && t.p.v && !t.p.d && !t.p.i && t.p.z && t.p.c && t.p.b && t.sp == 0xFD) = true := by decide

/-- R214. -/
theorem test_brk :
    stepsTo { start [(0xFFFF, 0x90)] with p := { State.reset.p with i := false, c := true } }
      (fun t => t.bus.peek 0x01FD == 0x80 && t.bus.peek 0x01FC == 0x02 && t.bus.peek 0x01FB == 0x31 && t.sp == 0xFA && t.p.i &&
        t.pc == 0x9000) = true := by decide

/-- R215, continuing the example of R214. -/
theorem test_rti :
    stepsTo { start [(0x01FB, 0x31), (0x01FC, 0x02), (0x01FD, 0x80), (0x9000, 0x40)] with pc := 0x9000, sp := 0xFA }
      (fun t => t.pc == 0x8002 && t.sp == 0xFD && !t.p.n && !t.p.v && !t.p.d && !t.p.i && !t.p.z && t.p.c && t.p.b) = true := by decide

/-- R216. -/
theorem test_nop :
    stepsTo (start [(0x8000, 0xEA)])
      (fun t => t.pc == 0x8001 && t.bus == (start [(0x8000, 0xEA)]).bus && t.out.cycles == some 2) = true := by decide

/-- R217: byte 0x02 at 0x8000. -/
theorem test_unimpl : step (start [(0x8000, 0x02)]) = .fault (.unimplementedOpcode 0x02 0x8000) := rfl

/-- R109: the accesses of BRK, six of them, in the order of R214. -/
theorem test_brk_accesses :
    stepsTo (start [(0x8002, 0x07)]) (fun t => t.out.accesses ==
      [.read 0x8000 0x00, .write 0x01FD 0x80, .write 0x01FC 0x02, .write 0x01FB 0x34, .read 0xFFFE 0x00, .read 0xFFFF 0x00]) =
      true := by decide

/-- R104: both pointer bytes from the zero page, Y of R105 not involved; five accesses. -/
theorem test_izx_accesses :
    stepsTo (start [(0x00FF, 0x34), (0x8000, 0xA1), (0x8001, 0xFF)]) (fun t => t.out.accesses ==
      [.read 0x8000 0xA1, .read 0x8001 0xFF, .read 0x00FF 0x34, .read 0x0000 0x00, .read 0x0034 0x00]) = true := by decide

/-- The first step after reset runs the word placed for it (log 10). -/
theorem test_fetch_word_runs_first :
    stepsTo (State.reset.withFetchWord 16 0x80A9) (fun t => t.a == 0x80 && t.pc == 0x0002) = true ∧
    step (State.reset.withFetchWord 8 0x02) = .fault (.unimplementedOpcode 0x02 0x0000) := ⟨by decide, rfl⟩

/-- R40: the values the spec gives for reset. -/
theorem test_reset :
    State.reset.sp = 0xFD ∧ State.reset.p.i = true ∧ State.reset.p.b = true ∧ State.reset.bus.mem.wf ∧ State.reset.bus.map = [] ∧
    State.reset.out.cycles = none := by
  decide

/-- R236: an IRQ with P.I clear pushes bit 4 as 0 and enters at the word at 0xFFFE. -/
theorem test_host_irq :
    let t := State.hostIrq { start [(0xFFFF, 0x90)] with p := { State.reset.p with i := false } }
    t.pc = 0x9000 ∧ t.sp = 0xFA ∧ t.bus.peek 0x01FB = 0x20 ∧ t.p.i = true := by decide

/-- R236: the NMI's vector is at 0xFFFA. -/
theorem test_host_nmi :
    let t := State.hostNmi (start [(0xFFFB, 0x91), (0xFFFF, 0x90)])
    t.pc = 0x9100 ∧ t.sp = 0xFA ∧ t.bus.peek 0x01FB = 0x24 := by decide

/-! ## The bus: a platform with a RAM of 2048 bytes and its mirrors, a window of devices, and a ROM with a register behind it -/

/-- The map of that platform. -/
def platform : List Window :=
  [{ base := 0x0000, size := 0x2000, kind := .ram, target := 0x0000, period := 0x0800 },
   { base := 0x2000, size := 0x2000, kind := .device, target := 0x0000, period := 0 },
   { base := 0x8000, size := 0x4000, kind := .romPort, target := 0x8000, period := 0 },
   { base := 0xC000, size := 0x4000, kind := .rom, target := 0x8000, period := 0 }]

/-- A state on that platform. -/
def onPlatform (cells : Memory) : State := { start cells with bus := { map := platform, mem := cells, devices := 7 } }

/-- Each edge of each window, and an address in none (R61). -/
theorem test_places :
    (onPlatform []).bus.place 0x07FF = ⟨.ram, 0x07FF⟩ ∧ (onPlatform []).bus.place 0x0800 = ⟨.ram, 0x0000⟩ ∧
    (onPlatform []).bus.place 0x1FFF = ⟨.ram, 0x07FF⟩ ∧ ((onPlatform []).bus.place 0x2000).kind = .device ∧
    ((onPlatform []).bus.place 0x3FFF).kind = .device ∧ (onPlatform []).bus.place 0x4000 = ⟨.ram, 0x4000⟩ ∧
    (onPlatform []).bus.place 0x8000 = ⟨.romPort, 0x8000⟩ ∧ (onPlatform []).bus.place 0xC000 = ⟨.rom, 0x8000⟩ ∧
    (onPlatform []).bus.place 0xFFFF = ⟨.rom, 0xBFFF⟩ := by decide

/-- A store through one mirror is read through another (R61). -/
theorem test_mirror :
    stepsTo { onPlatform [(0x8000, 0x8D), (0x8001, 0x02), (0x8002, 0x18)] with a := 0x42 }
      (fun t => t.bus.peek 0x0002 == 0x42 && t.bus.peek 0x0802 == 0x42 && t.bus.peek 0x0003 == 0x00) = true := by decide

/-- A store to plain ROM is made and listed, and has no effect (R51, R61). -/
theorem test_rom_write :
    stepsTo { onPlatform [(0x8000, 0x8D), (0x8002, 0xC0)] with a := 0x42 }
      (fun t => t.bus == (onPlatform [(0x8000, 0x8D), (0x8002, 0xC0)]).bus && t.bus.peek 0xC000 == 0x8D &&
        t.out.accesses.getLast? == some (.write 0xC000 0x42)) = true := by decide

/-- A store to the ROM with a register behind it reaches the devices, and the ROM keeps its byte. -/
theorem test_rom_register :
    ∃ t, step { onPlatform [(0x8000, 0x8D), (0x8002, 0x80)] with a := 0x42 } = .next t ∧
      t.bus = { (onPlatform [(0x8000, 0x8D), (0x8002, 0x80)]).bus with devices := Config.deviceWrite 7 0x8000 0x42 } :=
  ⟨_, rfl, rfl⟩

/-- A load from a device reads it once: A is whatever it answers, and its state is whatever the read leaves (R50, R67, R68). -/
theorem test_device_read :
    ∃ t, step (onPlatform [(0x8000, 0xAD), (0x8001, 0x02), (0x8002, 0x20)]) = .next t ∧
      t.a = (Config.deviceRead 7 0x2002).1 ∧ t.bus.devices = (Config.deviceRead 7 0x2002).2 ∧
      t.out.accesses = [.read 0x8000 0xAD, .read 0x8001 0x02, .read 0x8002 0x20, .read 0x2002 (Config.deviceRead 7 0x2002).1] :=
  ⟨_, rfl, rfl, rfl, rfl⟩

/-- A read-modify-write of a device reads it once and then writes it once (R67). -/
theorem test_device_modify :
    let r := Config.deviceRead 7 0x2002
    ∃ t, step (onPlatform [(0x8000, 0xEE), (0x8001, 0x02), (0x8002, 0x20)]) = .next t ∧
      t.bus.devices = Config.deviceWrite r.2 0x2002 (r.1 + 1) := ⟨_, rfl, rfl⟩

/-- The word placed for the next step is run on any platform: where PC is no RAM, one window of RAM is put before the map (log 10). -/
theorem test_fetch_word_on_platform :
    stepsTo (({ onPlatform [] with pc := 0x2000 } : State).withFetchWord 16 0x80A9)
      (fun t => t.a == 0x80 && t.pc == 0x2002 && (t.bus.place 0x2002).kind == .ram && (t.bus.place 0x2003).kind == .device) =
      true := by decide

/-! ## Witnesses: for every obligation with hypotheses, a state and operands that meet them together -/

/-- A state a witness starts from: `LDA #$80` at 0x8000. -/
def lda80 : State := start [(0x8000, 0xA9), (0x8001, 0x80)]

/-- What a step of `lda80` answers. -/
theorem step_lda80 :
    step lda80 = .next { lda80 with
      a := 0x80, pc := 0x8002, p := { State.reset.p with n := true },
      out := { cycles := some 2, accesses := [.read 0x8000 0xA9, .read 0x8001 0x80] } } := rfl

theorem witness_DecodeOfEncodeIsIdentity :
    (Instr.ldaAby 0xFFFF).wf = true ∧ (Instr.bpl 0x00).wf = true ∧ (Instr.unimpl 0xFF).wf = true := by decide

theorem witness_EncodeOfDecodeIsIdentity : decode [0xA9, 0x80, 0x01] = .ok (.ldaImm 0x80, [0x01]) := rfl

theorem witness_OpcodeTableIsTotal :
    ((0xFF : Byte) ∈ unimplementedBytes ∧ (0x02 : Byte) ∈ unimplementedBytes) ∧
    (0x00 : Byte) ∉ unimplementedBytes ∧ (0xFE : Byte) ∉ unimplementedBytes := by decide

theorem witness_FirstByteTellsLength :
    decode [0xBD, 0xFF, 0xFF] = .ok (.ldaAbx 0xFFFF, []) ∧ decode [0xBD, 0x00, 0x00] = .ok (.ldaAbx 0x0000, []) := ⟨rfl, rfl⟩

theorem witness_BaseCyclesAreTwoToSeven :
    Instr.tax.baseCycles = some 2 ∧ Instr.brk.baseCycles = some 7 ∧ (Instr.unimpl 0x02).baseCycles = none := ⟨rfl, rfl, rfl⟩

theorem witness_FetchReadsAtPCAndAdvances : decode (Forms.bytesAtPC lda80) = .ok (.ldaImm 0x80, [0x00]) := rfl

theorem witness_StepRunsTheDecodedInstruction : decode (Forms.bytesAtPC lda80) = .ok (.ldaImm 0x80, [0x00]) := rfl

theorem witness_StepReturnsBaseCycles :
    ∃ t, decode (Forms.bytesAtPC lda80) = .ok (.ldaImm 0x80, [0x00]) ∧ step lda80 = .next t := ⟨_, rfl, step_lda80⟩

theorem witness_StepMakesAtMostSixAccesses : ∃ t, step (start []) = .next t ∧ t.out.accesses.length = 6 := ⟨_, rfl, rfl⟩

theorem witness_AccessesAccountForMemory :
    ∃ t, step (start []) = .next t ∧ t.bus ≠ (start []).bus ∧
      ∀ x ∈ t.out.accesses, Forms.reachesDevices (start []).bus x = false :=
  ⟨_, rfl, by decide, by decide⟩

theorem witness_UnimplementedByteFaults :
    (start [(0x8000, 0x02)]).bus.peek (start [(0x8000, 0x02)]).pc ∈ unimplementedBytes ∧
    (start [(0x8000, 0xFF)]).bus.peek (start [(0x8000, 0xFF)]).pc ∈ unimplementedBytes := by decide

theorem witness_OfficialOpcodeCompletes :
    (start []).bus.peek (start []).pc ∉ unimplementedBytes ∧
    (start [(0x8000, 0xFE)]).bus.peek (start [(0x8000, 0xFE)]).pc ∉ unimplementedBytes := by decide

theorem witness_RunEndsOnlyAtUnimplementedByte :
    Host.Core.run core 2 (start [(0x8000, 0xEA), (0x8001, 0x02)]) = .fault (.unimplementedOpcode 0x02 0x8001) := rfl

theorem witness_StepKeepsInvariant : lda80.Inv ∧ ∃ t, step lda80 = .next t := ⟨⟨by decide, rfl⟩, _, step_lda80⟩

theorem witness_RunKeepsInvariant : lda80.Inv ∧ ∃ t, RunsTo 1 lda80 t := ⟨⟨by decide, rfl⟩, _, rfl⟩

theorem witness_ResetMeetsInvariant : lda80.bus.mem.wf ∧ lda80.bus.mem ≠ [] := by decide

theorem witness_EqualReadsMeanEqualMemory :
    ∃ m m' : Memory, m ≠ [] ∧ m.wf ∧ m'.wf ∧ ∀ a : Word, m.read a = m'.read a :=
  ⟨[(0, 0x01), (65535, 0xFF)], [(0, 0x01), (65535, 0xFF)], by decide, by decide, by decide, fun _ => rfl⟩

/-- Every kind of place, RAM with a mirror among them, a window of devices over the whole address space, and flat RAM. -/
theorem witness_BusAnswersByPlace :
    ((onPlatform []).bus.place 0x0000).kind = .ram ∧ ((onPlatform []).bus.place 0x1800).cell = 0x0000 ∧
    ((onPlatform []).bus.place 0xFFFF).kind = .rom ∧ ((onPlatform []).bus.place 0x8000).kind = .romPort ∧
    ((onPlatform []).bus.place 0x3FFF).kind = .device ∧
    (∃ b : Bus, b.map = [{ base := 0, size := 65536, kind := .device, target := 0, period := 0 }]) ∧ (start []).bus.map = [] :=
  ⟨by decide, by decide, by decide, by decide, by decide, ⟨{ Bus.flat with map := _ }, rfl⟩, rfl⟩

/-- NOP is named by no clause of the flag frame: all six hypotheses are met. -/
theorem witness_FlagsKeptUnlessNamed :
    exec .nop lda80 = .next lda80 ∧
    Instr.nop.mnemonic ∉ [Mnemonic.LDA, .LDX, .LDY, .TAX, .TAY, .TXA, .TYA, .TSX, .INX, .INY, .DEX, .DEY, .INC, .DEC, .ADC, .SBC,
      .AND, .ORA, .EOR, .ASL, .LSR, .ROL, .ROR, .PLA, .CMP, .CPX, .CPY, .BIT, .PLP, .RTI] ∧
    Instr.nop.mnemonic ∉ [Mnemonic.ADC, .SBC, .BIT, .CLV, .PLP, .RTI] ∧
    Instr.nop.mnemonic ∉ [Mnemonic.CLD, .SED, .PLP, .RTI] ∧
    Instr.nop.mnemonic ∉ [Mnemonic.CLI, .SEI, .BRK, .PLP, .RTI] ∧
    Instr.nop.mnemonic ∉ [Mnemonic.ADC, .SBC, .CMP, .CPX, .CPY, .ASL, .LSR, .ROL, .ROR, .CLC, .SEC, .PLP, .RTI] :=
  ⟨rfl, by decide, by decide, by decide, by decide, by decide⟩

/-- STA is named by no clause of the register frame. -/
theorem witness_RegistersKeptUnlessDestination :
    (∃ t, exec (.staZp 0x10) lda80 = .next t) ∧ (Instr.staZp 0x10).mode ≠ .acc ∧
    (Instr.staZp 0x10).mnemonic ∉ [Mnemonic.LDA, .TXA, .TYA, .PLA, .ADC, .SBC, .AND, .ORA, .EOR] ∧
    (Instr.staZp 0x10).mnemonic ∉ [Mnemonic.LDX, .TAX, .TSX, .INX, .DEX] ∧
    (Instr.staZp 0x10).mnemonic ∉ [Mnemonic.LDY, .TAY, .INY, .DEY] ∧
    (Instr.staZp 0x10).mnemonic ∉ [Mnemonic.TXS, .PHA, .PLA, .PHP, .PLP, .JSR, .RTS, .BRK, .RTI] ∧
    (Instr.staZp 0x10).mnemonic ∉ [Mnemonic.BPL, .BMI, .BVC, .BVS, .BCC, .BCS, .BNE, .BEQ, .JMP, .JSR, .RTS, .RTI, .BRK] :=
  ⟨⟨_, rfl⟩, by decide, by decide, by decide, by decide, by decide, by decide⟩

theorem witness_MemoryKeptUnlessStoring :
    (∃ t, exec (.ldaZp 0x10) lda80 = .next t) ∧ (Instr.ldaZp 0x10).mnemonic ∉ Forms.storers ∧
    (∃ t, exec .aslAcc lda80 = .next t) ∧ Instr.aslAcc.mode = .acc := ⟨⟨_, rfl⟩, by decide, ⟨_, rfl⟩, rfl⟩

theorem witness_StoringChangesOnlyEffectiveAddress :
    (Instr.incAbx 0xFFFF, MemMode.abx 0xFFFF) ∈ Forms.storing 0x00 0xFFFF ∧ (∃ t, exec (.incAbx 0xFFFF) lda80 = .next t) ∧
    (lda80.bus.place 0x0000).kind ≠ .device ∧
    (lda80.bus.place ((MemMode.abx 0xFFFF).resolve lda80).1).cell ≠ (lda80.bus.place 0x0000).cell :=
  ⟨by decide, ⟨_, rfl⟩, by decide, by decide⟩

theorem witness_StoredByteReadsBack :
    ((Instr.staIzy 0xFF, MemMode.izy 0xFF) ∈ Forms.sta 0xFF 0x0000 ∧ ∃ t, exec (.staIzy 0xFF) lda80 = .next t) ∧
    ((Instr.stxZpy 0xFF, MemMode.zpy 0xFF) ∈ Forms.stx 0xFF 0x0000 ∧ ∃ t, exec (.stxZpy 0xFF) lda80 = .next t) ∧
    ((Instr.styZpx 0xFF, MemMode.zpx 0xFF) ∈ Forms.sty 0xFF 0x0000 ∧ ∃ t, exec (.styZpx 0xFF) lda80 = .next t) ∧
    (lda80.bus.place ((MemMode.izy 0xFF).resolve lda80).1).kind = .ram ∧
    ((onPlatform []).bus.place ((MemMode.abs 0xFFFF).resolve (onPlatform [])).1).kind = .rom ∧
    ((onPlatform []).bus.place ((MemMode.abs 0x8000).resolve (onPlatform [])).1).kind = .romPort :=
  ⟨⟨by decide, _, rfl⟩, ⟨by decide, _, rfl⟩, ⟨by decide, _, rfl⟩, by decide, by decide, by decide⟩

/-- A stack pointer at 0x00, where every push of more than one byte wraps. -/
def lowStack : State := { lda80 with sp := 0x00 }

theorem witness_PushesStayInStackPage :
    (∃ t, exec .pha lowStack = .next t ∧ t.sp = 0xFF) ∧ (∃ t, exec .php lowStack = .next t ∧ t.sp = 0xFF) ∧
    (∃ t, exec .brk lowStack = .next t ∧ t.sp = 0xFD) ∧ (∃ t, exec (.jsr 0x9000) lowStack = .next t ∧ t.sp = 0xFE) ∧
    (Instr.pha, 1) ∈ [(Instr.pha, 1), (.php, 1), (.brk, 3)] ∧ (Instr.jsr 0x9000).mnemonic = .JSR ∧
    Forms.stackBelow lowStack 3 = [0x0100, 0x01FF, 0x01FE] ∧ lowStack.bus.map = [] ∧ (0x0200 : Word).toNat > 0x01FF :=
  ⟨⟨_, rfl, rfl⟩, ⟨_, rfl, rfl⟩, ⟨_, rfl, rfl⟩, ⟨_, rfl, rfl⟩, by decide, rfl, by decide, rfl, by decide⟩

theorem witness_StoreSeenByNextFetch :
    (Instr.staAbs 0x9000, MemMode.abs 0x9000) ∈ Forms.sta 0x00 0x9000 ∧ (0x02 : Byte) ∈ unimplementedBytes ∧
    (lda80.bus.place 0x9000).kind = .ram ∧
    ∃ t r : State, exec (.staAbs 0x9000) { lda80 with a := 0x02 } = .next t ∧ r.bus.map = t.bus.map ∧ r.bus.mem = t.bus.mem ∧
      r.pc = ((MemMode.abs 0x9000).resolve { lda80 with a := 0x02 }).1 :=
  ⟨by decide, by decide, by decide, _, { lda80 with pc := 0x9000, bus := lda80.bus.write 0x9000 0x02 }, rfl, rfl, rfl, rfl⟩

theorem witness_DecimalAndInterruptReadOnlyByPack :
    (Instr.adcImm 0x09).mnemonic ∉ [Mnemonic.PHP, .BRK] ∧ ∃ t, exec (.adcImm 0x09) lda80 = .next t := ⟨by decide, _, rfl⟩

theorem witness_BranchTargetIsSignedOffset :
    ((0x7F : Byte).toNat < 128 ∧ (branchTarget 0x7F lda80).toNat = 0x807F) ∧
    (128 ≤ (0x80 : Byte).toNat ∧ (branchTarget 0x80 lda80).toNat = 0x7F80) := by decide

theorem witness_LoadsAndStores :
    (Instr.ldaImm 0x00, Source.imm 0x00) ∈ Forms.lda 0x00 0xFFFF ∧
    (Instr.ldxAby 0xFFFF, Source.mem (.aby 0xFFFF)) ∈ Forms.ldx 0x00 0xFFFF ∧
    (Instr.ldyAbx 0xFFFF, Source.mem (.abx 0xFFFF)) ∈ Forms.ldy 0x00 0xFFFF ∧
    (Instr.staIzx 0x00, MemMode.izx 0x00) ∈ Forms.sta 0x00 0xFFFF ∧
    (Instr.stxZpy 0x00, MemMode.zpy 0x00) ∈ Forms.stx 0x00 0xFFFF ∧
    (Instr.styZpx 0x00, MemMode.zpx 0x00) ∈ Forms.sty 0x00 0xFFFF := by decide

theorem witness_IncrementsAndDecrements :
    (Instr.incAbx 0xFFFF, MemMode.abx 0xFFFF) ∈ Forms.inc 0x00 0xFFFF ∧
    (Instr.decZpx 0x00, MemMode.zpx 0x00) ∈ Forms.dec 0x00 0xFFFF := by decide

theorem witness_Compares :
    (Instr.cmpIzy 0xFF, Source.mem (.izy 0xFF)) ∈ Forms.cmp 0xFF 0x0000 ∧ (Instr.cpxImm 0xFF, Source.imm 0xFF) ∈ Forms.cpx 0xFF 0x0000 ∧
    (Instr.cpyAbs 0x0000, Source.mem (.abs 0x0000)) ∈ Forms.cpy 0xFF 0x0000 := by decide

theorem witness_ConditionalBranches :
    (Instr.beq 0x80, lda80.p.z, true) ∈ [(Instr.bpl 0x80, lda80.p.n, false), (.bmi 0x80, lda80.p.n, true), (.bvc 0x80, lda80.p.v, false),
      (.bvs 0x80, lda80.p.v, true), (.bcc 0x80, lda80.p.c, false), (.bcs 0x80, lda80.p.c, true), (.bne 0x80, lda80.p.z, false),
      (.beq 0x80, lda80.p.z, true)] := by decide

/-- A decidable property of each address of a list, checked address by address. -/
theorem forall_mem_of_all {l : List Word} {P : Word → Prop} [DecidablePred P] (h : l.all (fun a => decide (P a)) = true) :
    ∀ a ∈ l, P a := fun a ha => of_decide_eq_true (List.all_eq_true.mp h a ha)

theorem witness_JsrPushesReturnAddress : Forms.plainRam lowStack.bus (Forms.stackBelow lowStack 2) :=
  ⟨forall_mem_of_all (by decide), by decide⟩

/-- Both ways of meeting the hypothesis: what the pulls get, and what is left in RAM. -/
theorem witness_RtsReturnsAfterJsr :
    ∃ t r : State, exec (.jsr 0x9000) lowStack = .next t ∧ r.sp = t.sp ∧ r ≠ t ∧
      Forms.pullsBack r [lowByte (lowStack.pc - 1), highByte (lowStack.pc - 1)] ∧ Forms.stackLeft lowStack t r 2 :=
  ⟨_, { lowStack with sp := 0xFE, bus := (lowStack.bus.write 0x0100 0x7F).write 0x01FF 0xFF }, rfl, rfl, by decide,
    ⟨rfl, rfl, trivial⟩, ⟨forall_mem_of_all (by decide), by decide⟩, rfl, forall_mem_of_all (by decide)⟩

theorem witness_AdcIsBinaryAddition : (Instr.adcIzx 0xFF, Source.mem (.izx 0xFF)) ∈ Forms.adc 0xFF 0x0000 := by decide

theorem witness_SbcIsBinarySubtraction : (Instr.sbcIzx 0xFF, Source.mem (.izx 0xFF)) ∈ Forms.sbc 0xFF 0x0000 := by decide

theorem witness_SbcAfterSecAgreesWithCmp :
    ((Instr.sbcImm 0xFF, Source.imm 0xFF), (Instr.cmpImm 0xFF, Source.imm 0xFF)) ∈ (Forms.sbc 0xFF 0).zip (Forms.cmp 0xFF 0) ∧
    ∃ s t u : State, s.p.c = true ∧ exec (.sbcImm 0xFF) s = .next t ∧ exec (.cmpImm 0xFF) s = .next u :=
  ⟨by decide, { lda80 with p := { lda80.p with c := true } }, _, _, rfl, rfl, rfl⟩

theorem witness_LogicOperations :
    (Instr.andImm 0x0F, Source.imm 0x0F) ∈ Forms.and 0x0F 0x0000 ∧
    (Instr.oraAby 0x0000, Source.mem (.aby 0x0000)) ∈ Forms.ora 0x0F 0x0000 ∧
    (Instr.eorIzy 0x0F, Source.mem (.izy 0x0F)) ∈ Forms.eor 0x0F 0x0000 := by decide

theorem witness_BitTest : (Instr.bitAbs 0xFFFF, MemMode.abs 0xFFFF) ∈ Forms.bit 0x00 0xFFFF := by decide

theorem witness_ShiftsAndRotates :
    (Instr.aslAcc, Target.acc) ∈ Forms.shift .aslAcc (Forms.aslMem 0x00 0xFFFF) ∧
    (Instr.lsrZp 0x00, Target.mem (.zp 0x00)) ∈ Forms.shift .lsrAcc (Forms.lsrMem 0x00 0xFFFF) ∧
    (Instr.rolAbs 0xFFFF, Target.mem (.abs 0xFFFF)) ∈ Forms.shift .rolAcc (Forms.rolMem 0x00 0xFFFF) ∧
    (Instr.rorAbx 0xFFFF, Target.mem (.abx 0xFFFF)) ∈ Forms.shift .rorAcc (Forms.rorMem 0x00 0xFFFF) := by decide

theorem witness_PlpRestoresAfterPhp :
    ∃ t r : State, exec .php lowStack = .next t ∧ r.sp = t.sp ∧ r ≠ t ∧
      Forms.pullsBack r [lowStack.p.pack] ∧ Forms.stackLeft lowStack t r 1 :=
  ⟨_, { lowStack with sp := 0xFF, bus := lowStack.bus.write 0x0100 0x34 }, rfl, rfl, by decide, ⟨rfl, trivial⟩,
    ⟨forall_mem_of_all (by decide), by decide⟩, rfl, forall_mem_of_all (by decide)⟩

theorem witness_RtiResumesAfterBrk :
    ∃ t r : State, exec .brk lowStack = .next t ∧ r.sp = t.sp ∧ r ≠ t ∧
      Forms.pullsBack r [lowStack.p.pack, lowByte (lowStack.pc + 1), highByte (lowStack.pc + 1)] ∧
      Forms.stackLeft lowStack t r 3 :=
  ⟨_, { lowStack with sp := 0xFD, bus := ((lowStack.bus.write 0x0100 0x80).write 0x01FF 0x01).write 0x01FE 0x34 }, rfl, rfl,
    by decide, ⟨rfl, rfl, rfl, trivial⟩, ⟨forall_mem_of_all (by decide), by decide⟩, rfl, forall_mem_of_all (by decide)⟩

theorem witness_HostInterruptsEnterHandler :
    lda80.p.i = true ∧ ({ lda80 with p := { lda80.p with i := false } } : State).p.i = false := by decide

end Sys2Proof.Tests
end

/-! # Proofs of the state family (10_state)

First what an instruction can do, said once: to a completed instruction's state by shape, to the memory cells, to the frame of a bus;
then the step and the run; then the statements, each after the lemmas that are its own. -/

namespace Sys2Proof.Machine

/-- A completed instruction has one of the shapes `exec_shape` lists. -/
theorem shape_of_exec {i : Instr} {s t : State} (h : exec i s = .next t) : Shape s i (.next t) := h ▸ exec_shape i s

/-! ## What an operation leaves of the memory cells -/

section Cells
variable (s : State)

@[simp] theorem State.pull_mem : s.pull.2.bus.mem = s.bus.mem := Bus.read_mem _ _

@[simp] theorem State.pullWord_mem : s.pullWord.2.bus.mem = s.bus.mem := by simp [State.pullWord_eq]

@[simp] theorem State.read16_mem (addr : Word) : (s.read16 addr).2.bus.mem = s.bus.mem := by simp [State.read16_eq]

@[simp] theorem State.resolveInd_mem (ptr : Word) : (s.resolveInd ptr).2.bus.mem = s.bus.mem := by simp [State.resolveInd_eq]

@[simp] theorem State.returnFromTrap_mem : s.returnFromTrap.bus.mem = s.bus.mem := by simp [State.returnFromTrap_eq]

variable {s} (hs : s.bus.mem.wf)
include hs

theorem State.push_wf (v : Byte) : (s.push v).bus.mem.wf := Bus.wf_write hs _ _

theorem State.pushWord_wf (w : Word) : (s.pushWord w).bus.mem.wf := State.push_wf (State.push_wf hs _) _

theorem State.takeTrap_wf (ret : Word) (status : Byte) (vector : Word) : (s.takeTrap ret status vector).bus.mem.wf := by
  simpa [State.takeTrap_eq] using State.push_wf (State.pushWord_wf hs ret) status

theorem store_wf (m : MemMode) (v : Byte) : (store m v s).bus.mem.wf := by
  rw [store_eq]
  exact Bus.wf_write (by simpa using hs) _ _

theorem State.modify_wf (m : MemMode) (f : Byte → Status → Byte × Status) : (s.modify m f).bus.mem.wf := by
  rw [State.modify_eq]
  exact Bus.wf_write (by simpa using hs) _ _

theorem addToMemory_wf (d : Byte) (m : MemMode) : (addToMemory d m s).bus.mem.wf := State.modify_wf hs m _

theorem shiftTarget_mem_wf (f : Byte → Bool → Byte × Bool) (m : MemMode) : (shiftTarget f (.mem m) s).bus.mem.wf :=
  State.modify_wf hs m _

end Cells

/-- Every instruction keeps the canonical form of the memory: by a write of the bus, or because it writes no cell. -/
theorem exec_wf {i : Instr} {s t : State} (hs : s.bus.mem.wf) (h : exec i s = .next t) : t.bus.mem.wf := by
  cases shape_of_exec h with
  -- at least one write
  | sta | stx | sty => exact store_wf hs _ _
  | inc | dec => exact addToMemory_wf hs _ _
  | aslMem | lsrMem | rolMem | rorMem => exact shiftTarget_mem_wf hs _ _
  | pha | php => exact State.push_wf hs _
  | jsr => simpa using State.pushWord_wf hs (s.pc - 1)
  | brk => exact State.takeTrap_wf hs _ _ _
  -- reads only
  | lda | ldx | ldy | cmp | cpx | cpy | adc | sbc | and | ora | eor | bit =>
    simpa [loadA_eq, loadX_eq, loadY_eq, compareWith_eq, addWithCarry_eq, subtractWithBorrow_eq, logicA_eq, testBits_eq]
      using hs
  | jmpInd | rts | pla | plp | rti => simpa using hs
  -- no access
  | bpl | bmi | bvc | bvs | bcc | bcs | bne | beq => simpa [branchIf_eq] using hs
  | aslAcc | lsrAcc | rolAcc | rorAcc => simpa [shiftTarget_acc] using hs
  | _ => simpa using hs

/-! ## The step and the run -/

@[simp] theorem State.busPast_mem (s : State) (n : Nat) : (s.busPast n).mem = s.bus.mem := by
  induction n with
  | zero => rfl
  | succ n ih => rw [State.busPast, Bus.read_mem, ih]

/-- Every step is one instruction on the state its fetch leaves: PC past its bytes, the bus after their reads, a fresh output (R90). -/
theorem step_exec (s : State) :
    ∃ i : Instr, step s =
      exec i (s.fetched i (s.pc + BitVec.ofNat 16 i.length) (s.busPast i.length) (s.fetches i.length)) := by
  have hfits := entryOf_fits (s.byteAt 0)
  cases hop : entryOf (s.byteAt 0) with
  | f1 i =>
    obtain ⟨-, hlen, -⟩ := hop ▸ hfits
    exact ⟨i, by rw [hlen]; exact step_of_fetch (fetchInstr_f1 hop)⟩
  | f2 make =>
    obtain ⟨-, hlen, -⟩ := (hop ▸ hfits : (Entry.f2 make).Fits _) (s.byteAt 1)
    exact ⟨_, by rw [hlen]; exact step_of_fetch (fetchInstr_f2 hop)⟩
  | f3 make =>
    obtain ⟨-, hlen, -⟩ := (hop ▸ hfits : (Entry.f3 make).Fits _) (joinBytes (s.byteAt 2) (s.byteAt 1))
    exact ⟨_, by rw [hlen]; exact step_of_fetch (fetchInstr_f3 hop)⟩
  | unimpl => exact ⟨_, step_of_fetch (fetchInstr_marker hop)⟩

theorem runsTo_zero {s t : State} : RunsTo 0 s t ↔ s = t := Iff.of_eq (Host.Outcome.next.injEq s t)

theorem runsTo_succ {k : Nat} {s t : State} : RunsTo (k + 1) s t ↔ ∃ u, step s = .next u ∧ RunsTo k u t := by
  simp only [RunsTo, Host.Core.run, Host.Check.core_step]
  cases h : step s with
  | next u => simp
  | fault r => simp
  | refused r => simp

/-- What every step keeps holds along every run. -/
theorem RunsTo.preserves {P : State → Prop} (hstep : ∀ s t, P s → step s = .next t → P t) {k : Nat} {s t : State} (hs : P s)
    (h : RunsTo k s t) : P t := by
  induction k generalizing s with
  | zero => exact runsTo_zero.mp h ▸ hs
  | succ k ih =>
    obtain ⟨u, hu, hrest⟩ := runsTo_succ.mp h
    exact ih (hstep s u hs hu) hrest

/-! ## The frame of a bus -/

section Frame
variable {b d : Bus} {stored : List Word}

theorem keptBut_refl (b : Bus) (stored : List Word) : Forms.keptBut b b stored := ⟨rfl, fun _ _ _ => rfl⟩

theorem keptBut_mono (h : Forms.keptBut b d stored) {more : List Word} (hsub : stored ⊆ more) : Forms.keptBut b d more := by
  obtain ⟨hmap, hpeek⟩ := h
  exact ⟨hmap, fun a ha hcell => hpeek a ha fun w hw => hcell w (hsub hw)⟩

theorem keptBut_read (h : Forms.keptBut b d stored) (a : Word) : Forms.keptBut b (d.read a).2 stored := by
  obtain ⟨hmap, hpeek⟩ := h
  refine ⟨(Bus.read_map d a).trans hmap, fun c hc hcell => ?_⟩
  have hdc : (d.place c).kind ≠ .device := Bus.place_congr hmap c ▸ hc
  rw [Bus.peek_read _ _ _ hdc, hpeek c hc hcell]

theorem keptBut_write (h : Forms.keptBut b d stored) {w : Word} (hw : w ∈ stored) (v : Byte) :
    Forms.keptBut b (d.write w v) stored := by
  obtain ⟨hmap, hpeek⟩ := h
  refine ⟨(Bus.write_map d w v).trans hmap, fun c hc hcell => ?_⟩
  have hplace := Bus.place_congr hmap
  have hother : ¬((d.place w).kind = .ram ∧ (d.place c).cell = (d.place w).cell) := by
    rw [hplace w, hplace c]
    exact fun ⟨hram, hsame⟩ => hcell w hw hram hsame.symm
  rw [Bus.peek_write _ _ _ _ (hplace c ▸ hc), if_neg hother, hpeek c hc hcell]

/-- Over flat RAM the frame is: every address not stored to reads as before. -/
theorem keptBut_flat (h : Forms.keptBut b d stored) (hflat : b.map = []) {a : Word} (ha : a ∉ stored) :
    d.peek a = b.peek a := by
  obtain ⟨-, hpeek⟩ := h
  refine hpeek a (by simp [Bus.place_flat hflat]) fun w hw _ hcell => ha ?_
  simp only [Bus.place_flat hflat] at hcell
  exact hcell ▸ hw

end Frame

/-! ## The frame of the registers and the flags -/

/-- Settles O21: one case per way an instruction can write P. -/
theorem flagsKeptUnlessNamed : Obligations.FlagsKeptUnlessNamed := by
  intro i s t h
  cases shape_of_exec h with
  -- N and Z from a result
  | lda _ _ hm | ldx _ _ hm | ldy _ _ hm => simp [hm, loadA_eq, loadX_eq, loadY_eq]
  | and _ _ hm | ora _ _ hm | eor _ _ hm => simp [hm, logicA_eq]
  | inc _ _ hm | dec _ _ hm => simp [hm, addToMemory_eq]
  | tax _ hm | tay _ hm | txa _ hm | tya _ hm | tsx _ hm | inx _ hm | iny _ hm | dex _ hm | dey _ hm => simp [hm]
  | pla _ hm => simp [hm, State.pull_eq]
  -- more flags from a result
  | cmp _ _ hm | cpx _ _ hm | cpy _ _ hm => simp [hm, compareWith_eq]
  | adc _ _ hm | sbc _ _ hm => simp [hm, addWithCarry_eq, subtractWithBorrow_eq]
  | bit _ _ hm => simp [hm, testBits_eq]
  | aslAcc _ hm | lsrAcc _ hm | rolAcc _ hm | rorAcc _ hm => simp [hm, shiftTarget_acc]
  | aslMem _ _ hm | lsrMem _ _ hm | rolMem _ _ hm | rorMem _ _ hm => simp [hm, shiftTarget_mem]
  -- one flag, or the six flags of a pulled byte
  | clc _ hm | sec _ hm | cli _ hm | sei _ hm | clv _ hm | cld _ hm | sed _ hm => simp [hm]
  | brk _ hm => simp [hm, State.takeTrap_eq, State.pushWord_eq, State.push_eq]
  | plp _ hm => simp [hm, State.pull_eq]
  | rti _ hm => simp [hm, State.returnFromTrap_eq]
  -- P kept
  | sta | stx | sty => simp [store_eq]
  | bpl | bmi | bvc | bvs | bcc | bcs | bne | beq => simp [branchIf_eq]
  | jmpInd => simp [State.resolveInd_eq]
  | rts => simp [State.pullWord_eq]
  | jsr => simp [State.pushWord_eq]
  | pha | php => simp [State.push_eq]
  | txs | jmpAbs | nop => simp

/-- Settles O22: one case per register an instruction can write. -/
theorem registersKeptUnlessDestination : Obligations.RegistersKeptUnlessDestination := by
  intro i s t h
  cases shape_of_exec h with
  -- A, X or Y
  | lda _ _ hm | ldx _ _ hm | ldy _ _ hm => simp [hm, loadA_eq, loadX_eq, loadY_eq]
  | and _ _ hm | ora _ _ hm | eor _ _ hm => simp [hm, logicA_eq]
  | adc _ _ hm | sbc _ _ hm => simp [hm, addWithCarry_eq, subtractWithBorrow_eq]
  | tax _ hm | tay _ hm | txa _ hm | tya _ hm | tsx _ hm | inx _ hm | iny _ hm | dex _ hm | dey _ hm => simp [hm]
  | aslAcc _ _ hacc | lsrAcc _ _ hacc | rolAcc _ _ hacc | rorAcc _ _ hacc => simp [hacc, shiftTarget_acc]
  -- S, alone or with another register
  | txs _ hm => simp [hm]
  | pha _ hm | php _ hm => simp [hm, State.push_eq]
  | pla _ hm | plp _ hm => simp [hm, State.pull_eq]
  | jsr _ _ hm => simp [hm, State.pushWord_eq]
  | rts _ hm => simp [hm, State.pullWord_eq]
  | brk _ hm => simp [hm, State.takeTrap_eq, State.read16_eq, State.pushWord_eq, State.push_eq]
  | rti _ hm => simp [hm, State.returnFromTrap_eq]
  -- PC alone
  | bpl _ _ hm | bmi _ _ hm | bvc _ _ hm | bvs _ _ hm | bcc _ _ hm | bcs _ _ hm | bne _ _ hm | beq _ _ hm =>
    simp [hm, branchIf_eq]
  | jmpAbs _ _ hm => simp [hm]
  | jmpInd _ _ hm => simp [hm, State.resolveInd_eq]
  -- no register
  | sta | stx | sty => simp [store_eq]
  | inc | dec => simp [addToMemory_eq]
  | cmp | cpx | cpy => simp [compareWith_eq]
  | bit => simp [testBits_eq]
  | aslMem | lsrMem | rolMem | rorMem => simp [shiftTarget_mem]
  | clc | sec | cli | sei | clv | cld | sed | nop => simp

/-! ## The invariant -/

/-- An instruction keeps the invariant: no shape leaves the canonical form, and P.B is kept by the frame of the flags. -/
theorem exec_inv {i : Instr} {s t : State} (hs : s.Inv) (h : exec i s = .next t) : t.Inv := by
  obtain ⟨hwf, hb⟩ := hs
  obtain ⟨-, -, hbKept, -⟩ := flagsKeptUnlessNamed i s t h
  exact ⟨exec_wf hwf h, hbKept.trans hb⟩

theorem State.fetched_inv {s : State} (hs : s.Inv) (i : Instr) (pc : Word) (n : Nat) (accesses : List BusAccess) :
    (s.fetched i pc (s.busPast n) accesses).Inv := by
  obtain ⟨hwf, hb⟩ := hs
  exact ⟨(s.busPast_mem n).symm ▸ hwf, hb⟩

/-- Settles O16: a step is an instruction on the state its fetch leaves, and both fetch and instruction keep the invariant. -/
theorem stepKeepsInvariant : Obligations.StepKeepsInvariant := by
  intro s t hs h
  obtain ⟨i, hstep⟩ := step_exec s
  exact exec_inv (State.fetched_inv hs i _ _ _) (hstep ▸ h)

/-- Settles O17, by the induction over runs. -/
theorem runKeepsInvariant : Obligations.RunKeepsInvariant := fun _ _ _ hs h => h.preserves stepKeepsInvariant hs

theorem afterReset_inv (draw : ResetDraw) {b : Bus} (hb : b.mem.wf) : (State.afterReset draw b).Inv :=
  ⟨Bus.wf_read (Bus.wf_read hb _) _, rfl⟩

/-- Settles O18: the host's reset, like `State.reset`, is `State.afterReset` over the bus it finds. -/
theorem resetMeetsInvariant : Obligations.ResetMeetsInvariant :=
  ⟨afterReset_inv _ Memory.wf_nil, fun draw s hs => s.hostReset_eq draw ▸ afterReset_inv draw hs⟩

/-! ## What a push changes -/

theorem newAccesses_of_append {s t : State} {more : List BusAccess} (h : t.out.accesses = s.out.accesses ++ more) :
    Forms.newAccesses s t = more := by rw [Forms.newAccesses, h, List.drop_left]

theorem stackBelow_succ (s : State) (n : Nat) :
    Forms.stackBelow s (n + 1) = Forms.stackBelow s n ++ [stackAddr (s.sp - BitVec.ofNat 8 n)] := by
  simp [Forms.stackBelow, List.range_succ]

theorem stackBelow_in_page {s : State} {n : Nat} {a : Word} (h : a ∈ Forms.stackBelow s n) :
    0x0100 ≤ a.toNat ∧ a.toNat ≤ 0x01FF := by
  obtain ⟨k, -, rfl⟩ := List.mem_map.mp h
  rw [stackAddr_toNat]
  omega

/-- Between `s` and `t` the accesses' writes are at the `n` locations from S down, no other byte that memory answers has changed, and
S has gone down by `n`. -/
structure Pushed (s : State) (n : Nat) (t : State) : Prop where
  accesses : ∃ more, t.out.accesses = s.out.accesses ++ more ∧ ∀ a v, .write a v ∈ more → a ∈ Forms.stackBelow s n
  bus : Forms.keptBut s.bus t.bus (Forms.stackBelow s n)
  sp : t.sp = s.sp - BitVec.ofNat 8 n

namespace Pushed

theorem nothing (s : State) : Pushed s 0 s := ⟨⟨[], by simp, by simp⟩, keptBut_refl _ _, by simp⟩

variable {s t : State} {n : Nat}

theorem jump (h : Pushed s n t) (pc : Word) : Pushed s n { t with pc := pc } := ⟨h.accesses, h.bus, h.sp⟩

theorem setP (h : Pushed s n t) (p : Status) : Pushed s n { t with p := p } := ⟨h.accesses, h.bus, h.sp⟩

theorem push (h : Pushed s n t) (v : Byte) : Pushed s (n + 1) (t.push v) := by
  obtain ⟨⟨more, hmore, hwrites⟩, hbus, hsp⟩ := h
  have hsub : Forms.stackBelow s n ⊆ Forms.stackBelow s (n + 1) := by simp [stackBelow_succ]
  have htop : stackAddr t.sp ∈ Forms.stackBelow s (n + 1) := by simp [stackBelow_succ, hsp]
  refine ⟨⟨more ++ [.write (stackAddr t.sp) v], by simp [State.push_eq, hmore], fun a w ha => ?_⟩,
    keptBut_write (keptBut_mono hbus hsub) htop v, ?_⟩
  · rcases List.mem_append.mp ha with ha | ha
    · exact hsub (hwrites a w ha)
    · obtain ⟨rfl, -⟩ : a = stackAddr t.sp ∧ w = v := by simpa using ha
      exact htop
  · simp [State.push_eq, hsp, BitVec.ofNat_add, BitVec.sub_sub]

theorem memRead (h : Pushed s n t) (a : Word) : Pushed s n (t.memRead a).2 := by
  obtain ⟨⟨more, hmore, hwrites⟩, hbus, hsp⟩ := h
  exact ⟨⟨more ++ [.read a (t.bus.peek a)], by simp [hmore], by simpa using hwrites⟩, keptBut_read hbus a, hsp⟩

theorem pushWord (h : Pushed s n t) (w : Word) : Pushed s (n + 2) (t.pushWord w) := (h.push _).push _

theorem takeTrap (h : Pushed s n t) (ret : Word) (status : Byte) (vector : Word) :
    Pushed s (n + 3) (t.takeTrap ret status vector) :=
  (((((h.pushWord ret).push status).setP _).memRead vector).memRead (vector + 1)).jump _

end Pushed

theorem eq_jsr_of_mnemonic {i : Instr} (h : i.mnemonic = .JSR) : ∃ addr, i = .jsr addr := by
  cases i with
  | jsr addr => exact ⟨addr, rfl⟩
  | _ => cases h

/-- PHA, PHP, JSR and BRK push 1, 1, 2 and 3 bytes. -/
theorem pushed_of_exec {i : Instr} {n : Nat} {s t : State}
    (hi : (i, n) ∈ [(Instr.pha, 1), (.php, 1), (.brk, 3)] ∨ (n = 2 ∧ i.mnemonic = .JSR)) (h : exec i s = .next t) :
    Pushed s n t := by
  rcases hi with hi | ⟨rfl, hi⟩
  · simp only [List.mem_cons, Prod.mk.injEq, List.not_mem_nil, or_false] at hi
    rcases hi with ⟨rfl, rfl⟩ | ⟨rfl, rfl⟩ | ⟨rfl, rfl⟩ <;> cases h
    · exact (Pushed.nothing s).push _
    · exact (Pushed.nothing s).push _
    · exact (Pushed.nothing s).takeTrap _ _ _
  · obtain ⟨addr, rfl⟩ := eq_jsr_of_mnemonic hi
    cases h
    exact ((Pushed.nothing s).pushWord _).jump addr

/-- Settles O26: each of the four pushes its bytes, so the writes and the frame are those of `Pushed`. -/
theorem pushesStayInStackPage : Obligations.PushesStayInStackPage := by
  intro i n s t hi h
  obtain ⟨⟨more, hmore, hwrites⟩, hbus, hsp⟩ := pushed_of_exec hi h
  refine ⟨fun a v ha => ?_, hbus, fun hflat a ha => ?_, hsp⟩
  · have hbelow := hwrites a v (newAccesses_of_append hmore ▸ ha)
    exact ⟨hbelow, stackBelow_in_page hbelow⟩
  · refine keptBut_flat hbus hflat fun hbelow => ?_
    have := stackBelow_in_page hbelow
    omega

/-! ## P.D and P.I -/

/-- The state with P.D and P.I replaced. -/
def State.withDI (s : State) (d i : Bool) : State := { s with p := { s.p with d := d, i := i } }

/-- What `f` answers depends on P.D and P.I in P.D and P.I at most. -/
def BlindToDI (f : State → State) : Prop :=
  ∀ (s : State) (d i d' i' : Bool), (f (s.withDI d i)).withDI d' i' = (f s).withDI d' i'

section Blind

theorem MemMode.resolve_withDI (m : MemMode) (s : State) (d i : Bool) :
    m.resolve (s.withDI d i) = ((m.resolve s).1, (m.resolve s).2.withDI d i) := by
  cases m <;> rfl

theorem Source.value_withDI (o : Source) (s : State) (d i : Bool) :
    o.value (s.withDI d i) = ((o.value s).1, (o.value s).2.withDI d i) := by
  cases o with
  | imm d8 => rfl
  | mem m => simp only [Source.value, MemMode.resolve_withDI]; rfl

variable (o : Source) (m : MemMode)

/-- An operation that takes a source byte is blind when what it does with the byte is. -/
theorem blind_of_source {g : Byte → State → State} (hg : ∀ v, BlindToDI (g v)) :
    BlindToDI fun s => g (o.value s).1 (o.value s).2 := by
  intro s d i d' i'
  simp only [Source.value_withDI]
  exact hg _ _ d i d' i'

theorem loadA_blind : BlindToDI (loadA o) :=
  blind_of_source o (g := fun v s => { s with a := v, p := s.p.setNZ v }) fun _ _ _ _ _ _ => rfl

theorem loadX_blind : BlindToDI (loadX o) :=
  blind_of_source o (g := fun v s => { s with x := v, p := s.p.setNZ v }) fun _ _ _ _ _ _ => rfl

theorem loadY_blind : BlindToDI (loadY o) :=
  blind_of_source o (g := fun v s => { s with y := v, p := s.p.setNZ v }) fun _ _ _ _ _ _ => rfl

/-- Addition is binary whatever P.D holds (92 D8). -/
theorem addWithCarry_blind : BlindToDI (addWithCarry o) :=
  blind_of_source o (g := addToA) fun _ _ _ _ _ _ => rfl

theorem subtractWithBorrow_blind : BlindToDI (subtractWithBorrow o) :=
  blind_of_source o (g := fun v => addToA (v ^^^ 0xFF)) fun _ _ _ _ _ _ => rfl

theorem logicA_blind (f : Byte → Byte → Byte) : BlindToDI (logicA f o) :=
  blind_of_source o (g := fun v s => { s with a := f s.a v, p := s.p.setNZ (f s.a v) }) fun _ _ _ _ _ _ => rfl

theorem testBits_blind : BlindToDI (testBits m) :=
  blind_of_source (.mem m) (g := fun v s => { s with p := s.p.bitTest s.a v }) fun _ _ _ _ _ _ => rfl

theorem addToMemory_blind (delta : Byte) : BlindToDI (addToMemory delta m) := by
  intro s d i d' i'
  simp only [addToMemory, State.modify, MemMode.resolve_withDI]
  rfl

theorem shiftTarget_blind (f : Byte → Bool → Byte × Bool) (target : Target) : BlindToDI (shiftTarget f target) := by
  intro s d i d' i'
  cases target with
  | acc => rfl
  | mem m => simp only [shiftTarget, State.modify, MemMode.resolve_withDI]; rfl

variable {reg : State → Byte} (hreg : ∀ s d i, reg (s.withDI d i) = reg s)
include hreg

theorem compareWith_blind : BlindToDI fun s => compareWith (reg s) o s := by
  intro s d i d' i'
  simp only [compareWith, hreg, Source.value_withDI]
  rfl

theorem store_blind : BlindToDI fun s => store m (reg s) s := by
  intro s d i d' i'
  simp only [store, hreg, MemMode.resolve_withDI]
  rfl

end Blind

theorem branchIf_blind (d8 : Byte) {test : State → Bool} (htest : ∀ s d i, test (s.withDI d i) = test s) :
    BlindToDI fun s => branchIf (test s) d8 s := by
  intro s d i d' i'
  simp only [branchIf_eq, htest]
  rfl

/-- Every instruction that completes, but for the two that pack the status, is one operation blind to P.D and P.I. -/
theorem exec_blind {i : Instr} {s t : State} (hi : i.mnemonic ∉ [.PHP, .BRK]) (h : exec i s = .next t) :
    ∃ f, (∀ r, exec i r = .next (f r)) ∧ BlindToDI f := by
  cases i with
  | php | brk => simp [Instr.mnemonic] at hi
  | unimpl => cases h
  | ldaImm | ldaZp | ldaZpx | ldaAbs | ldaAbx | ldaAby | ldaIzx | ldaIzy => exact ⟨_, fun _ => rfl, loadA_blind _⟩
  | ldxImm | ldxZp | ldxZpy | ldxAbs | ldxAby => exact ⟨_, fun _ => rfl, loadX_blind _⟩
  | ldyImm | ldyZp | ldyZpx | ldyAbs | ldyAbx => exact ⟨_, fun _ => rfl, loadY_blind _⟩
  | adcImm | adcZp | adcZpx | adcAbs | adcAbx | adcAby | adcIzx | adcIzy => exact ⟨_, fun _ => rfl, addWithCarry_blind _⟩
  | sbcImm | sbcZp | sbcZpx | sbcAbs | sbcAbx | sbcAby | sbcIzx | sbcIzy =>
    exact ⟨_, fun _ => rfl, subtractWithBorrow_blind _⟩
  | andImm | andZp | andZpx | andAbs | andAbx | andAby | andIzx | andIzy
  | oraImm | oraZp | oraZpx | oraAbs | oraAbx | oraAby | oraIzx | oraIzy
  | eorImm | eorZp | eorZpx | eorAbs | eorAbx | eorAby | eorIzx | eorIzy => exact ⟨_, fun _ => rfl, logicA_blind _ _⟩
  | bitZp | bitAbs => exact ⟨_, fun _ => rfl, testBits_blind _⟩
  | cmpImm | cmpZp | cmpZpx | cmpAbs | cmpAbx | cmpAby | cmpIzx | cmpIzy
  | cpxImm | cpxZp | cpxAbs | cpyImm | cpyZp | cpyAbs => exact ⟨_, fun _ => rfl, compareWith_blind _ fun _ _ _ => rfl⟩
  | staZp | staZpx | staAbs | staAbx | staAby | staIzx | staIzy | stxZp | stxZpy | stxAbs | styZp | styZpx | styAbs =>
    exact ⟨_, fun _ => rfl, store_blind _ fun _ _ _ => rfl⟩
  | incZp | incZpx | incAbs | incAbx | decZp | decZpx | decAbs | decAbx =>
    exact ⟨_, fun _ => rfl, addToMemory_blind _ _⟩
  | aslAcc | aslZp | aslZpx | aslAbs | aslAbx | lsrAcc | lsrZp | lsrZpx | lsrAbs | lsrAbx
  | rolAcc | rolZp | rolZpx | rolAbs | rolAbx | rorAcc | rorZp | rorZpx | rorAbs | rorAbx =>
    exact ⟨_, fun _ => rfl, shiftTarget_blind _ _⟩
  | bpl | bmi | bvc | bvs | bcc | bcs | bne | beq => exact ⟨_, fun _ => rfl, branchIf_blind _ fun _ _ _ => rfl⟩
  -- what is left resolves no `MemMode`: registers, flags, jumps, stack
  | _ => exact ⟨_, fun _ => rfl, fun _ _ _ _ _ => rfl⟩

/-- Settles O28: the two runs are one blind operation on both states. -/
theorem decimalAndInterruptReadOnlyByPack : Obligations.DecimalAndInterruptReadOnlyByPack := by
  intro i s t d' i' hi h
  obtain ⟨f, hexec, hblind⟩ := exec_blind hi h
  obtain rfl : f s = t := Host.Outcome.next.inj ((hexec s).symm.trans h)
  exact ⟨f (s.withDI d' i'), hexec _, hblind s d' i' _ _⟩

/-! ## The flags and the packed status byte -/

theorem getLsbD_seven (v : Byte) : v.getLsbD 7 = decide (128 ≤ v.toNat) := BitVec.msb_eq_decide v

theorem Status.setNZ_eq_withNZ (p : Status) (v : Byte) : p.setNZ v = Forms.withNZ p v := by
  have hz : (v == 0) = decide (v.toNat = 0) := by simp [BitVec.toNat_eq, beq_eq_decide]
  rw [Status.setNZ, Forms.withNZ, getLsbD_seven, hz]

/-- Settles O44: in numbers, 0 is below 128. -/
theorem setNZDerivesFlags : Obligations.SetNZDerivesFlags := by
  intro p v
  refine ⟨p.setNZ_eq_withNZ v, ?_⟩
  rw [Status.setNZ_eq_withNZ, Forms.withNZ]
  by_cases hz : v.toNat = 0
  · simp [hz]
  · simp [hz]

theorem bitAt_getElem (flag : Bool) (k j : Nat) (hj : j < 8) : (bitAt flag k)[j] = (flag && decide (j = k)) := by
  cases flag with
  | false => simp
  | true => rw [bitAt_true, ← BitVec.twoPow_eq, BitVec.getElem_twoPow, Bool.true_and]

theorem Status.pack_toNat (p : Status) :
    p.pack.toNat = 128 * p.n.toNat + 64 * p.v.toNat + 32 + 16 * p.b.toNat + 8 * p.d.toNat + 4 * p.i.toNat + 2 * p.z.toNat +
      p.c.toNat := by
  obtain ⟨n, v, b, d, i, z, c⟩ := p
  revert n v b d i z c
  decide

/-- Each of the six bits holds its own flag alone. -/
theorem Status.unpack_pack (p q : Status) : q.unpack p.pack = { p with b := q.b } := by
  simp [Status.unpack, Status.pack, bitAt_getElem]

/-- Settles O45: the packed byte in numbers, and its six bits one by one. -/
theorem packAndUnpackStatus : Obligations.PackAndUnpackStatus :=
  ⟨Status.pack_toNat, fun _ _ => rfl, Status.unpack_pack⟩

end Sys2Proof.Machine

/-! # Proofs of the memory family (20_memory)

First what a list of accesses can do to a bus, from `replay` alone; then which accesses an instruction and a step make; then the
statements, each after the lemmas that are its own. -/

namespace Sys2Proof.Machine

/-! ## What a list of accesses does to a bus -/

theorem replay_append (b : Bus) (l more : List BusAccess) :
    replay b (l ++ more) = (replay b l).bind fun d => replay d more := by
  induction l generalizing b with
  | nil => rfl
  | cons x l ih =>
    cases x with
    | read a v =>
      simp only [List.cons_append, replay]
      split
      · exact ih _
      · rfl
    | write a v => exact ih _

@[simp] theorem replay_read (b : Bus) (a : Word) : replay b [.read a (b.peek a)] = some (b.read a).2 := if_pos rfl

@[simp] theorem replay_write (b : Bus) (a : Word) (v : Byte) : replay b [.write a v] = some (b.write a v) := rfl

/-- What every listed access keeps, the list keeps. -/
theorem replay_preserves {P : Bus → Prop} {l : List BusAccess} {b d : Bus}
    (hread : ∀ a v, .read a v ∈ l → ∀ c, P c → P (c.read a).2)
    (hwrite : ∀ a v, .write a v ∈ l → ∀ c, P c → P (c.write a v)) (hb : P b) (h : replay b l = some d) : P d := by
  induction l generalizing b with
  | nil => exact Option.some.inj h ▸ hb
  | cons x l ih =>
    have hrest : ∀ c, P c → replay c l = some d → P d := fun c => ih
      (fun a v hx => hread a v (List.mem_cons_of_mem _ hx)) (fun a v hx => hwrite a v (List.mem_cons_of_mem _ hx))
    cases x with
    | read a v =>
      obtain ⟨-, h⟩ := Option.ite_none_right_eq_some.mp h
      exact hrest _ (hread a v List.mem_cons_self b hb) h
    | write a v => exact hrest _ (hwrite a v List.mem_cons_self b hb) h

/-- A write to RAM, or to ROM without a register behind it, leaves the devices. -/
theorem Bus.write_devices {b : Bus} {a : Word} (h : (b.place a).kind = .ram ∨ (b.place a).kind = .rom) (v : Byte) :
    (b.write a v).devices = b.devices := by
  unfold Bus.write
  rcases h with h | h <;> simp [h]

theorem Bus.read_devices {b : Bus} {a : Word} (h : (b.place a).kind ≠ .device) : (b.read a).2.devices = b.devices := by
  rw [Bus.read_memory h]

theorem reachesDevices_read {b : Bus} {a : Word} {v : Byte} :
    Forms.reachesDevices b (.read a v) = false ↔ (b.place a).kind ≠ .device := by simp [Forms.reachesDevices]

theorem reachesDevices_write {b : Bus} {a : Word} {v : Byte} :
    Forms.reachesDevices b (.write a v) = false ↔ (b.place a).kind = .ram ∨ (b.place a).kind = .rom := by
  rw [Forms.reachesDevices]
  cases (b.place a).kind <;> decide

section Replay
variable {l : List BusAccess} {b d : Bus}

/-- The frame of a list: the map, and every byte that memory answers but where the list writes. -/
theorem keptBut_of_replay {stored : List Word} (hstored : ∀ a v, .write a v ∈ l → a ∈ stored) (h : replay b l = some d) :
    Forms.keptBut b d stored :=
  replay_preserves (P := fun c => Forms.keptBut b c stored) (fun a _ _ _ hc => keptBut_read hc a)
    (fun a v hx _ hc => keptBut_write hc (hstored a v hx) v) (keptBut_refl b stored) h

theorem replay_map (h : replay b l = some d) : d.map = b.map :=
  replay_preserves (P := fun c => c.map = b.map) (fun a _ _ c hc => (Bus.read_map c a).trans hc)
    (fun a v _ c hc => (Bus.write_map c a v).trans hc) rfl h

/-- Accesses that do not reach the devices leave them. -/
theorem replay_devices (hl : ∀ x ∈ l, Forms.reachesDevices b x = false) (h : replay b l = some d) : d.devices = b.devices := by
  have hkeep : d.map = b.map ∧ d.devices = b.devices := by
    refine replay_preserves (P := fun c => c.map = b.map ∧ c.devices = b.devices) ?_ ?_ ⟨rfl, rfl⟩ h
    · rintro a v hx c ⟨hmap, hdev⟩
      have hkind := reachesDevices_read.mp (hl _ hx)
      rw [← Bus.place_congr hmap] at hkind
      exact ⟨(Bus.read_map c a).trans hmap, (Bus.read_devices hkind).trans hdev⟩
    · rintro a v hx c ⟨hmap, hdev⟩
      have hkind := reachesDevices_write.mp (hl _ hx)
      rw [← Bus.place_congr hmap] at hkind
      exact ⟨(Bus.write_map c a v).trans hmap, (Bus.write_devices hkind v).trans hdev⟩
  exact hkeep.2

end Replay

/-! ## The accesses an instruction makes -/

/-- From `s` to `t` the list has grown by accesses that account for the bus of `t`, writes among them only if `mayWrite`. -/
def Accessed (mayWrite : Prop) (s t : State) : Prop :=
  ∃ more, t.out.accesses = s.out.accesses ++ more ∧ replay s.bus more = some t.bus ∧ ∀ a v, .write a v ∈ more → mayWrite

namespace Accessed

theorem nothing (w : Prop) (s : State) : Accessed w s s := ⟨[], by simp, rfl, by simp⟩

variable {w : Prop} {s t : State}

/-- Registers and flags do not matter. -/
theorem update {u : State} (h : Accessed w s t) (hbus : u.bus = t.bus) (hout : u.out = t.out) : Accessed w s u := by
  rwa [Accessed, hbus, hout]

theorem jump (h : Accessed w s t) (pc : Word) : Accessed w s { t with pc := pc } := h.update rfl rfl

theorem memRead (h : Accessed w s t) (a : Word) : Accessed w s (t.memRead a).2 := by
  obtain ⟨more, hmore, hreplay, hw⟩ := h
  exact ⟨more ++ [.read a (t.bus.peek a)], by simp [hmore], by simp [replay_append, hreplay], by simpa using hw⟩

theorem memWrite (h : Accessed w s t) (hw : w) (a : Word) (v : Byte) : Accessed w s (t.memWrite a v) := by
  obtain ⟨more, hmore, hreplay, -⟩ := h
  exact ⟨more ++ [.write a v], by simp [hmore], by simp [replay_append, hreplay], fun _ _ _ => hw⟩

theorem pull (h : Accessed w s t) : Accessed w s t.pull.2 :=
  (h.update rfl rfl : Accessed w s { t with sp := t.sp + 1 }).memRead _

theorem pullWord (h : Accessed w s t) : Accessed w s t.pullWord.2 := h.pull.pull

theorem returnFromTrap (h : Accessed w s t) : Accessed w s t.returnFromTrap := h.pull.pull.pull.update rfl rfl

theorem push (h : Accessed w s t) (hw : w) (v : Byte) : Accessed w s (t.push v) := (h.memWrite hw _ v).update rfl rfl

theorem pushWord (h : Accessed w s t) (hw : w) (ret : Word) : Accessed w s (t.pushWord ret) := (h.push hw _).push hw _

theorem takeTrap (h : Accessed w s t) (hw : w) (ret : Word) (status : Byte) (vector : Word) :
    Accessed w s (t.takeTrap ret status vector) :=
  ((((h.pushWord hw ret).push hw status).memRead vector).memRead (vector + 1)).update rfl rfl

theorem resolveInd (h : Accessed w s t) (ptr : Word) : Accessed w s (t.resolveInd ptr).2 := (h.memRead _).memRead _

theorem resolve (h : Accessed w s t) (m : MemMode) : Accessed w s (m.resolve t).2 := by
  cases m with
  | izx | izy => exact (h.memRead _).memRead _
  | _ => exact h

theorem value (h : Accessed w s t) (o : Source) : Accessed w s (o.value t).2 := by
  cases o with
  | imm => exact h
  | mem m => exact (h.resolve m).memRead _

theorem store (h : Accessed w s t) (hw : w) (m : MemMode) (v : Byte) : Accessed w s (store m v t) :=
  (h.resolve m).memWrite hw _ v

theorem modify (h : Accessed w s t) (hw : w) (m : MemMode) (f : Byte → Status → Byte × Status) :
    Accessed w s (t.modify m f) :=
  (((h.resolve m).memRead _).memWrite hw _ _).update rfl rfl

theorem addToMemory (h : Accessed w s t) (hw : w) (d : Byte) (m : MemMode) : Accessed w s (addToMemory d m t) :=
  h.modify hw m _

theorem shiftTarget (h : Accessed w s t) (hw : w) (f : Byte → Bool → Byte × Bool) (m : MemMode) :
    Accessed w s (shiftTarget f (.mem m) t) := h.modify hw m _

end Accessed

/-- An instruction's accesses account for the bus, and only a form that stores or pushes writes. -/
theorem exec_accessed {i : Instr} {s t : State} (h : exec i s = .next t) :
    Accessed (i.mnemonic ∈ Forms.storers ∧ i.mode ≠ .acc) s t := by
  have hs := Accessed.nothing (i.mnemonic ∈ Forms.storers ∧ i.mode ≠ .acc) s
  cases shape_of_exec h with
  -- at least one write
  | sta _ m hm hacc | stx _ m hm hacc | sty _ m hm hacc => exact hs.store ⟨by simp [hm, Forms.storers], hacc⟩ m _
  | inc _ m hm hacc | dec _ m hm hacc => exact hs.addToMemory ⟨by simp [hm, Forms.storers], hacc⟩ _ m
  | aslMem _ m hm hacc | lsrMem _ m hm hacc | rolMem _ m hm hacc | rorMem _ m hm hacc =>
    exact hs.shiftTarget ⟨by simp [hm, Forms.storers], hacc⟩ _ m
  | pha _ hm hacc | php _ hm hacc => exact hs.push ⟨by simp [hm, Forms.storers], hacc⟩ _
  | jsr _ addr hm hacc => exact (hs.pushWord ⟨by simp [hm, Forms.storers], hacc⟩ _).jump addr
  | brk _ hm hacc => exact hs.takeTrap ⟨by simp [hm, Forms.storers], hacc⟩ _ _ _
  -- reads only
  | lda _ o | ldx _ o | ldy _ o | cmp _ o | cpx _ o | cpy _ o | adc _ o | sbc _ o | and _ o | ora _ o | eor _ o =>
    exact (hs.value o).update rfl rfl
  | bit _ m => exact (hs.value (.mem m)).update rfl rfl
  | jmpInd _ addr => exact (hs.resolveInd addr).update rfl rfl
  | pla | plp => exact hs.pull.update rfl rfl
  | rts => exact hs.pullWord.update rfl rfl
  | rti => exact hs.returnFromTrap
  -- no access
  | bpl | bmi | bvc | bvs | bcc | bcs | bne | beq => exact hs.update (by rw [branchIf_eq]) (by rw [branchIf_eq])
  | _ => exact hs.update rfl rfl

/-! ## The accesses a step makes -/

@[simp] theorem State.fetched_accesses (s : State) (i : Instr) (pc : Word) (b : Bus) (l : List BusAccess) :
    (s.fetched i pc b l).out.accesses = l := rfl

/-- The listed fetches of a step account for the bus its meaning starts from. -/
theorem replay_fetches (s : State) (n : Nat) : replay s.bus (s.fetches n) = some (s.busPast n) := by
  induction n with
  | zero => rfl
  | succ n ih =>
    have hsucc : s.fetches (n + 1) = s.fetches n ++ [.read (s.pc + BitVec.ofNat 16 n) (s.byteAt n)] := by
      simp [State.fetches, List.range_succ]
    rw [hsucc, replay_append, ih]
    exact replay_read (s.busPast n) _

/-- A step's accesses are its fetches and its instruction's accesses, so they account for the bus. -/
theorem step_replay {s t : State} (h : step s = .next t) : replay s.bus t.out.accesses = some t.bus := by
  obtain ⟨i, hstep⟩ := step_exec s
  obtain ⟨more, hmore, hreplay, -⟩ := exec_accessed (hstep ▸ h)
  rw [hmore, State.fetched_accesses, replay_append, replay_fetches]
  exact hreplay

/-- Settles O11: the map and the devices are kept as the replayed accesses keep them. -/
theorem accessesAccountForMemory : Obligations.AccessesAccountForMemory := fun _ _ h =>
  have hreplay := step_replay h
  ⟨hreplay, replay_map hreplay, fun hnone => replay_devices hnone hreplay⟩

/-- Settles O23: no access is a write, so the frame is that of a list of reads. -/
theorem memoryKeptUnlessStoring : Obligations.MemoryKeptUnlessStoring := by
  intro i s t h hkeeps
  obtain ⟨more, hmore, hreplay, hwrite⟩ := exec_accessed h
  have hnone : ∀ a v, .write a v ∉ more := fun a v ha => by
    obtain ⟨hstores, hmem⟩ := hwrite a v ha
    exact hkeeps.elim (· hstores) hmem
  rw [newAccesses_of_append hmore]
  exact ⟨hnone, keptBut_of_replay (fun a v ha => absurd ha (hnone a v)) hreplay⟩

/-! ## The canonical form of the memory -/

theorem Memory.mem_of_find {m : Memory} {a : Nat} (h : m.find a ≠ Config.unlistedByte) : (a, m.find a) ∈ m := by
  induction m with
  | nil => exact absurd rfl h
  | cons c m ih =>
    by_cases hc : c.1 = a
    · subst hc
      simp [Memory.find]
    · simp only [Memory.find, if_neg hc] at h ⊢
      exact List.mem_cons_of_mem _ (ih h)

theorem Memory.find_of_mem {m : Memory} (hm : m.Pairwise fun c d => c.1 < d.1) {c : Host.Cell} (h : c ∈ m) :
    m.find c.1 = c.2 := by
  induction m with
  | nil => cases h
  | cons d m ih =>
    obtain ⟨hd, hm⟩ := List.pairwise_cons.mp hm
    rcases List.mem_cons.mp h with rfl | h
    · simp [Memory.find]
    · rw [Memory.find, if_neg (Nat.ne_of_lt (hd c h)), ih hm h]

/-- In the canonical form the cells listed are exactly the cells that read as another byte than an unlisted one. -/
theorem Memory.mem_iff_read {m : Memory} (hm : m.wf) (c : Host.Cell) :
    c ∈ m ↔ c.1 < 65536 ∧ m.read (BitVec.ofNat 16 c.1) = c.2 ∧ c.2 ≠ Config.unlistedByte := by
  obtain ⟨hsorted, hcells⟩ := hm
  rw [Memory.read, BitVec.toNat_ofNat]
  constructor
  · intro hc
    obtain ⟨hlt, hbyte⟩ := hcells c hc
    exact ⟨hlt, by rw [Nat.mod_eq_of_lt hlt, Memory.find_of_mem hsorted hc], hbyte⟩
  · rintro ⟨hlt, hfind, hbyte⟩
    rw [Nat.mod_eq_of_lt hlt] at hfind
    have hmem := Memory.mem_of_find (hfind ▸ hbyte)
    rwa [hfind] at hmem

/-- Settles O20: rising lists with the same cells are equal. -/
theorem equalReadsMeanEqualMemory : Obligations.EqualReadsMeanEqualMemory := by
  intro m m' hm hm' hread
  have hcells : ∀ c, c ∈ m ↔ c ∈ m' := fun c => by rw [Memory.mem_iff_read hm, Memory.mem_iff_read hm', hread]
  have hirrefl : Std.Irrefl fun c d : Host.Cell => c.1 < d.1 := ⟨fun c => Nat.lt_irrefl c.1⟩
  have hantisymm : Std.Antisymm fun c d : Host.Cell => c.1 < d.1 := ⟨fun _ _ h h' => absurd h' (Nat.lt_asymm h)⟩
  exact hm.1.eq_of_mem_iff hm'.1 hcells

/-! ## A stored byte is fetched -/

/-- What memory answers depends on the map and the cells alone. -/
theorem Bus.peek_congr {b d : Bus} (hmap : b.map = d.map) (hmem : b.mem = d.mem) {a : Word}
    (h : (b.place a).kind ≠ .device) : b.peek a = d.peek a := by
  have hplace := Bus.place_congr hmap a
  rw [Bus.peek_memory h, Bus.peek_memory (hplace ▸ h), hplace, hmem]

/-- Every form of STA stores A at the effective address of its mode. -/
theorem exec_sta {d8 : Byte} {addr : Word} {f : Instr × MemMode} (hf : f ∈ Forms.sta d8 addr) (s : State) :
    exec f.1 s = .next (store f.2 s.a s) := by
  simp only [Forms.sta, List.mem_cons, List.not_mem_nil, or_false] at hf
  rcases hf with rfl | rfl | rfl | rfl | rfl | rfl | rfl <;> rfl

/-- RAM reads back the byte stored. -/
theorem store_peek {m : MemMode} {s : State} (h : (s.bus.place (m.resolve s).1).kind = .ram) (v : Byte) :
    (store m v s).bus.peek (m.resolve s).1 = v := by
  rw [store_eq]
  exact Bus.peek_write_same (by simpa using h) v

/-- A step at an unimplemented byte faults with it (R217). -/
theorem step_unimplemented {s : State} (h : s.bus.peek s.pc ∈ unimplementedBytes) :
    step s = .fault (.unimplementedOpcode (s.bus.peek s.pc) s.pc) := by
  rw [← State.byteAt_zero] at h ⊢
  exact step_marker (entryOf_unimplemented h)

/-- Settles O27: the address still reads the byte stored, and the fetch is that read. -/
theorem storeSeenByNextFetch : Obligations.StoreSeenByNextFetch := by
  intro s t r d8 addr f hf h hram hmap hmem hpc
  obtain rfl : store f.2 s.a s = t := Host.Outcome.next.inj ((exec_sta hf s).symm.trans h)
  have hmemory : (r.bus.place (f.2.resolve s).1).kind ≠ .device := by simp [Bus.place_congr hmap, store_eq, hram]
  have hbyte : r.bus.peek r.pc = s.a := by
    rw [hpc, Bus.peek_congr hmap hmem hmemory, store_peek hram]
  exact ⟨hbyte, fun hun => by rw [step_unimplemented (hbyte ▸ hun), hbyte]⟩

/-! ## Push and pull -/

theorem stackAddr_eq_ofNat (sp : Byte) : stackAddr sp = BitVec.ofNat 16 (256 + sp.toNat) := by
  apply BitVec.eq_of_toNat_eq
  rw [stackAddr_toNat, BitVec.toNat_ofNat]
  omega

/-- Settles O39: the two equations of the model, with S and its location in numbers. -/
theorem pushAndPull : Obligations.PushAndPull := by
  intro s v
  have hdown : s.sp - 1 = BitVec.ofNat 8 ((s.sp.toNat + 255) % 256) := by bv_omega
  have hup : s.sp + 1 = BitVec.ofNat 8 ((s.sp.toNat + 1) % 256) := by bv_omega
  have hat1 : stackAddr (s.sp + 1) = BitVec.ofNat 16 (256 + (s.sp.toNat + 1) % 256) := by
    rw [stackAddr_eq_ofNat, BitVec.toNat_add]; rfl
  rw [State.push_eq, State.pull_eq, hat1, stackAddr_eq_ofNat, hdown, hup]
  exact ⟨rfl, rfl⟩

/-! ## What a bus access does, by place -/

theorem Bus.place_of_full_window {b : Bus} {w : Window} {rest : List Window} (hmap : b.map = w :: rest)
    (hfull : 65536 ≤ w.size) (a : Word) : (b.place a).kind = w.kind := by
  have hholds : w.holds a = true := decide_eq_true (Nat.lt_of_lt_of_le (a - w.base).isLt hfull)
  simp [Bus.place, hmap, hholds]

theorem Bus.read_device {b : Bus} {a : Word} (h : (b.place a).kind = .device) :
    b.read a = ((Config.deviceRead b.devices a).1, { b with devices := (Config.deviceRead b.devices a).2 }) := by
  unfold Bus.read
  simp [h]

theorem Bus.write_device {b : Bus} {a : Word} (h : (b.place a).kind = .device) (v : Byte) :
    b.write a v = { b with devices := Config.deviceWrite b.devices a v } := by
  unfold Bus.write
  simp [h]

/-- Settles O46, one law of the bus for each clause. -/
theorem busAnswersByPlace : Obligations.BusAnswersByPlace := by
  intro b a c v
  refine ⟨⟨b.read_map a, b.read_mem a, b.write_map a v⟩, fun h => by rw [Bus.read_memory h], fun h => Bus.write_devices h v,
    fun h => ?_, fun h => ⟨Bus.read_device h, Bus.write_device h v⟩, fun w rest hmap hkind hfull => ?_, fun hflat => ?_⟩
  · simp only [Bus.peek_write b a c v h, eq_comm]
  · rw [Bus.place_of_full_window hmap hfull, hkind]
  · rw [Bus.peek_write b a c v (by simp [Bus.place_flat hflat])]
    simp [Bus.place_flat hflat]

end Sys2Proof.Machine

/-! # Proofs of the encoding family (30_encoding)

First how an encoding decodes and how a decoded list came to be, each said once by kind of table entry; then the statements. -/

namespace Sys2Proof

/-! ## Decoding an encoding -/

/-- A three-byte encoding, low byte first, decodes to the entry at the word it was made from. -/
theorem decode_f3_word {opcode : Byte} {make : Word → Instr} (h : entryOf opcode = .f3 make) (addr : Word) (rest : List Byte) :
    decode (opcode :: lowByte addr :: highByte addr :: rest) = .ok (make addr, rest) := by
  rw [decode_f3 h, joinBytes_highByte_lowByte]

/-- Settles O2: the entry at the opcode byte of an encoding makes the instruction, by format. -/
theorem decodeOfEncodeIsIdentity : Obligations.DecodeOfEncodeIsIdentity := by
  intro i rest hwf
  cases i with
  | unimpl opcode => exact decode_marker (entryOf_unimplemented (List.contains_iff_mem.mp hwf)) rest
  -- the opcode byte alone
  | tax | tay | txa | tya | tsx | txs | inx | iny | dex | dey | rts | clc | sec | cli | sei | clv | cld | sed
  | aslAcc | lsrAcc | rolAcc | rorAcc | pha | pla | php | plp | brk | rti | nop => exact decode_f1 rfl rest
  -- a word after it
  | ldaAbs addr | ldaAbx addr | ldaAby addr | ldxAbs addr | ldxAby addr | ldyAbs addr | ldyAbx addr
  | staAbs addr | staAbx addr | staAby addr | stxAbs addr | styAbs addr | incAbs addr | incAbx addr | decAbs addr | decAbx addr
  | cmpAbs addr | cmpAbx addr | cmpAby addr | cpxAbs addr | cpyAbs addr | jmpAbs addr | jmpInd addr | jsr addr
  | adcAbs addr | adcAbx addr | adcAby addr | sbcAbs addr | sbcAbx addr | sbcAby addr | andAbs addr | andAbx addr | andAby addr
  | oraAbs addr | oraAbx addr | oraAby addr | eorAbs addr | eorAbx addr | eorAby addr | bitAbs addr | aslAbs addr | aslAbx addr
  | lsrAbs addr | lsrAbx addr | rolAbs addr | rolAbx addr | rorAbs addr | rorAbx addr => exact decode_f3_word rfl addr rest
  -- a byte after it
  | _ d8 => exact decode_f2 rfl d8 rest

/-- Settles O1: the twelve words are encodings, some with a byte after them. -/
theorem opcodeMatrixWordsDecode : Obligations.OpcodeMatrixWordsDecode :=
  have word := decodeOfEncodeIsIdentity
  ⟨word (.ldaImm 0x80) [] rfl, word (.stxZpy 0xF0) [] rfl, word .txs [] rfl, word (.incAbx 0x0200) [] rfl,
   word (.cmpIzy 0x20) [] rfl, word (.bpl 0xFB) [] rfl, word (.jmpInd 0x02FF) [] rfl, word .sed [] rfl,
   word (.sbcIzx 0x20) [] rfl, word .rorAcc [] rfl, word .brk [0xFF] rfl, word (.unimpl 0xEB) [0x01] rfl⟩

/-! ## What the decoder reads -/

/-- The ways a list of bytes holds an instruction and the bytes after it, one for each kind of table entry. -/
inductive Reads : List Byte → Instr → List Byte → Prop where
  | f1 {opcode : Byte} {i : Instr} (h : entryOf opcode = .f1 i) (rest : List Byte) : Reads (opcode :: rest) i rest
  | f2 {opcode : Byte} {make : Byte → Instr} (h : entryOf opcode = .f2 make) (d8 : Byte) (rest : List Byte) :
      Reads (opcode :: d8 :: rest) (make d8) rest
  | f3 {opcode : Byte} {make : Word → Instr} (h : entryOf opcode = .f3 make) (lo hi : Byte) (rest : List Byte) :
      Reads (opcode :: lo :: hi :: rest) (make (joinBytes hi lo)) rest
  | marker {opcode : Byte} (h : entryOf opcode = .unimpl) (rest : List Byte) : Reads (opcode :: rest) (.unimpl opcode) rest

/-- A decoded list is one of those. -/
theorem reads_of_decode {bytes rest : List Byte} {i : Instr} (h : decode bytes = .ok (i, rest)) : Reads bytes i rest := by
  unfold decode at h
  split at h
  · cases h
  · split at h <;> cases h
    · exact .f1 ‹_› _
    · exact .f2 ‹_› _ _
    · exact .f3 ‹_› _ _ _
    · exact .marker ‹_› _

theorem fits_of_entryOf {opcode : Byte} {e : Entry} (h : entryOf opcode = e) : e.Fits opcode := h ▸ entryOf_fits opcode

/-- Settles O3: each entry fits its opcode byte, so what it makes encodes to that byte and the operand bytes read. -/
theorem encodeOfDecodeIsIdentity : Obligations.EncodeOfDecodeIsIdentity := by
  intro bytes rest i h
  cases reads_of_decode h with
  | f1 hentry =>
    obtain ⟨hencode, -, hofficial⟩ := fits_of_entryOf hentry
    exact ⟨hofficial.wf, by rw [hencode]; rfl⟩
  | f2 hentry d8 =>
    obtain ⟨hencode, -, hofficial, -⟩ := fits_of_entryOf hentry d8
    exact ⟨hofficial.wf, by rw [hencode]; rfl⟩
  | f3 hentry lo hi =>
    obtain ⟨hencode, -, hofficial, -⟩ := fits_of_entryOf hentry (joinBytes hi lo)
    exact ⟨hofficial.wf, by rw [hencode, lowByte_joinBytes, highByte_joinBytes]; rfl⟩
  | marker hentry => exact ⟨fits_of_entryOf hentry, rfl⟩

/-! ## The table entry by entry -/

/-- Any other byte than an unimplemented one, with two bytes after it, decodes to an instruction of an official row (R73, R77). -/
theorem decode_official {opcode : Byte} (h : opcode ∉ unimplementedBytes) (b1 b2 : Byte) :
    ∃ i rest, decode [opcode, b1, b2] = .ok (i, rest) ∧ i.Official := by
  cases hentry : entryOf opcode with
  | f1 i =>
    obtain ⟨-, -, hofficial⟩ := fits_of_entryOf hentry
    exact ⟨_, _, decode_f1 hentry _, hofficial⟩
  | f2 make =>
    obtain ⟨-, -, hofficial, -⟩ := fits_of_entryOf hentry b1
    exact ⟨_, _, decode_f2 hentry _ _, hofficial⟩
  | f3 make =>
    obtain ⟨-, -, hofficial, -⟩ := fits_of_entryOf hentry (joinBytes b2 b1)
    exact ⟨_, _, decode_f3 hentry _ _ _, hofficial⟩
  | unimpl => exact absurd (List.contains_iff_mem.mp (fits_of_entryOf hentry)) h

/-- Settles O4: an unimplemented byte's entry is the marker, any other byte's makes an instruction of an official row. -/
theorem opcodeTableIsTotal : Obligations.OpcodeTableIsTotal := by
  intro opcode b1 b2
  refine ⟨fun h => decode_marker (entryOf_unimplemented h) _, fun h => ?_⟩
  obtain ⟨i, rest, hdecode, hofficial⟩ := decode_official h b1 b2
  exact ⟨i, rest, hdecode, hofficial.mnemonic, hofficial.mode, hofficial.cycles⟩

/-! ## What the first byte tells -/

/-- An instruction of the entry that stands at an opcode byte: the one with operand zero where it takes one. -/
def Entry.row (opcode : Byte) : Entry → Instr
  | .f1 i => i
  | .f2 make => make 0
  | .f3 make => make 0
  | .unimpl => .unimpl opcode

/-- A decoded instruction has the mnemonic and the mode of the entry at its first byte. -/
theorem row_of_decode {opcode : Byte} {tail rest : List Byte} {i : Instr} (h : decode (opcode :: tail) = .ok (i, rest)) :
    i.mnemonic = ((entryOf opcode).row opcode).mnemonic ∧ i.mode = ((entryOf opcode).row opcode).mode := by
  cases reads_of_decode h with
  | f1 hentry | marker hentry => rw [hentry]; exact ⟨rfl, rfl⟩
  | f2 hentry d8 =>
    obtain ⟨-, -, -, hrow⟩ := fits_of_entryOf hentry d8
    rwa [hentry]
  | f3 hentry lo hi =>
    obtain ⟨-, -, -, hrow⟩ := fits_of_entryOf hentry (joinBytes hi lo)
    rwa [hentry]

theorem encode_length (i : Instr) : (encode i).length = i.length := by
  cases i <;> rfl

/-- The bytes a decoded instruction occupies are those consumed. -/
theorem length_add_of_decode {bytes rest : List Byte} {i : Instr} (h : decode bytes = .ok (i, rest)) :
    rest.length + i.length = bytes.length := by
  obtain ⟨-, hbytes⟩ := encodeOfDecodeIsIdentity bytes rest i h
  rw [← hbytes, List.length_append, encode_length, Nat.add_comm]

/-- Settles O5: both instructions are of the entry at the first byte. -/
theorem firstByteTellsLength : Obligations.FirstByteTellsLength := by
  intro opcode b1 b2 c1 c2 i j ri rj hi hj
  obtain ⟨himnemonic, himode⟩ := row_of_decode hi
  obtain ⟨hjmnemonic, hjmode⟩ := row_of_decode hj
  have hmode : i.mode = j.mode := himode.trans hjmode.symm
  exact ⟨himnemonic.trans hjmnemonic.symm, hmode, congrArg Mode.length hmode, length_add_of_decode hi⟩

end Sys2Proof

/-! # Proofs of the execution and addressing family (40_execution_and_addressing)

First what an instruction's length and the sums of bytes and words are in numbers; then the fetch of an instruction's bytes, what
the instruction adds to the step's output, and the effective addresses. -/

namespace Sys2Proof

/-! ## The length and the base cycle count of an instruction -/

theorem Instr.length_pos (i : Instr) : 0 < i.length := by
  unfold Instr.length; cases i.mode <;> decide

theorem Instr.length_le_three (i : Instr) : i.length ≤ 3 := by
  unfold Instr.length; cases i.mode <;> decide

theorem Instr.length_brk {i : Instr} (h : i.mnemonic = .BRK) : i.length = 1 := by
  cases i with
  | brk => rfl
  | _ => cases h

/-- Settles O6: a row of the table has one of the counts 2 to 7, the marker none. -/
theorem baseCyclesAreTwoToSeven : Obligations.BaseCyclesAreTwoToSeven := by
  intro i
  cases i with
  | unimpl => exact ⟨iff_of_true rfl rfl, nofun⟩
  | _ => exact ⟨iff_of_false nofun nofun, by rintro n ⟨⟩; decide⟩

/-! ## Bytes and words in numbers -/

theorem zext16_eq_ofNat (b : Byte) : zext16 b = BitVec.ofNat 16 b.toNat :=
  (BitVec.ofNat_toNat 16 b).symm

/-- Zero-page sums wrap in the page. -/
theorem zext16_add (b c : Byte) : zext16 (b + c) = BitVec.ofNat 16 ((b.toNat + c.toNat) % 256) := by
  rw [zext16_eq_ofNat, BitVec.toNat_add]

theorem add_zext16 (w : Word) (b : Byte) : w + zext16 b = BitVec.ofNat 16 ((w.toNat + b.toNat) % 65536) := by
  unfold zext16; bv_omega

theorem joinBytes_eq_ofNat (hi lo : Byte) : joinBytes hi lo = BitVec.ofNat 16 (hi.toNat * 256 + lo.toNat) := by
  rw [← joinBytes_toNat, BitVec.ofNat_toNat, BitVec.setWidth_eq]

/-- The sign bit of an offset takes 256 off it, modulo 65536. -/
theorem sext16_toNat (b : Byte) : (sext16 b).toNat = if 128 ≤ b.toNat then b.toNat + 65280 else b.toNat := by
  have hfits : b.toNat % 65536 = b.toNat := Nat.mod_eq_of_lt (Nat.lt_trans b.isLt (by decide))
  rw [sext16, BitVec.toNat_signExtend, BitVec.msb_eq_decide, BitVec.toNat_setWidth, hfits]
  by_cases h : 128 ≤ b.toNat <;> simp [h]

end Sys2Proof

namespace Sys2Proof.Machine

/-! ## The bytes of an instruction -/

/-- The last of `n + 1` reads in a row is made on the bus the first `n` leave. -/
theorem readUp_succ (n : Nat) (b : Bus) (a : Word) :
    Forms.readUp (n + 1) b a =
      let r := Forms.readUp n b a
      let last := a + BitVec.ofNat 16 n
      (r.1 ++ [(last, r.2.peek last)], (r.2.read last).2) := by
  induction n generalizing b a with
  | zero => simp [Forms.readUp]
  | succ n ih =>
    have hlast : a + 1 + BitVec.ofNat 16 n = a + BitVec.ofNat 16 (n + 1) := by
      rw [BitVec.add_assoc, BitVec.add_comm 1, BitVec.ofNat_add]; rfl
    rw [Forms.readUp, ih, hlast]
    rfl

/-- Reads in a row from PC on are the fetches of a step. -/
theorem readUp_pc (s : State) (n : Nat) :
    Forms.readUp n s.bus s.pc = ((List.range n).map fun k => (s.pc + BitVec.ofNat 16 k, s.byteAt k), s.busPast n) := by
  induction n with
  | zero => rfl
  | succ n ih => rw [readUp_succ, ih, List.range_succ, List.map_append]; rfl

theorem bytesAtPC_eq (s : State) : Forms.bytesAtPC s = [s.byteAt 0, s.byteAt 1, s.byteAt 2] := by
  rw [Forms.bytesAtPC, readUp_pc]; rfl

theorem afterFetch_eq (s : State) (i : Instr) :
    Forms.afterFetch s i = s.fetched i (s.pc + BitVec.ofNat 16 i.length) (s.busPast i.length) (s.fetches i.length) := by
  simp [Forms.afterFetch, readUp_pc, State.fetched, State.fetches]

/-- The first half of a step finds the instruction the bytes at PC decode to, and reads its bytes (R91). -/
theorem fetchInstr_of_decode {s : State} {i : Instr} {rest : List Byte} (h : decode (Forms.bytesAtPC s) = .ok (i, rest)) :
    s.beginStep.fetchInstr.1 = i ∧ s.beginStep.fetchInstr.2.returning i.baseCycles = Forms.afterFetch s i := by
  rw [bytesAtPC_eq] at h
  rw [afterFetch_eq]
  cases reads_of_decode h with
  | f1 hentry =>
    obtain ⟨-, hlen, -⟩ := fits_of_entryOf hentry
    rw [hlen]
    exact fetchInstr_f1 hentry
  | f2 hentry =>
    obtain ⟨-, hlen, -⟩ := fits_of_entryOf hentry (s.byteAt 1)
    rw [hlen]
    exact fetchInstr_f2 hentry
  | f3 hentry =>
    obtain ⟨-, hlen, -⟩ := fits_of_entryOf hentry (joinBytes (s.byteAt 2) (s.byteAt 1))
    rw [hlen]
    exact fetchInstr_f3 hentry
  | marker hentry => exact fetchInstr_marker hentry

/-- Settles O7: one read at PC, PC plus 1 in numbers, and the fetches of a step by kind of table entry. -/
theorem fetchReadsAtPCAndAdvances : Obligations.FetchReadsAtPCAndAdvances := by
  refine ⟨fun s => ?_, fun s i rest h => fetchInstr_of_decode h⟩
  have hpc : s.pc + 1 = BitVec.ofNat 16 ((s.pc.toNat + 1) % 65536) := by bv_omega
  rw [State.fetch_eq, hpc]
  rfl

/-- Settles O8: a step is the fetched instruction on the state the fetch leaves. -/
theorem stepRunsTheDecodedInstruction : Obligations.StepRunsTheDecodedInstruction :=
  fun _ _ _ h => step_of_fetch (fetchInstr_of_decode h)

/-- Settles O12: a step begins with a fresh output whatever the last one was. -/
theorem stepIgnoresLastOutput : Obligations.StepIgnoresLastOutput := by
  intro s o
  have hbegin : { s with out := o }.beginStep = s.beginStep := rfl
  rw [step, step, hbegin]

/-! ## The cycle count -/

@[simp] theorem Source.value_cycles (o : Source) (s : State) : (o.value s).2.out.cycles = s.out.cycles := by
  cases o with
  | imm d8 => rfl
  | mem m => rw [Source.value_mem]

/-- No meaning touches the cycle count: a taken branch or a crossed page adds nothing (D9). -/
theorem exec_cycles {i : Instr} {s t : State} (h : exec i s = .next t) : t.out.cycles = s.out.cycles := by
  cases shape_of_exec h with
  -- an operand byte
  | lda | ldx | ldy => simp [loadA_eq, loadX_eq, loadY_eq]
  | adc | sbc | and | ora | eor => simp [addWithCarry_eq, subtractWithBorrow_eq, logicA_eq]
  | cmp | cpx | cpy => simp [compareWith_eq]
  | bit => simp [testBits_eq]
  -- a write at an effective address
  | sta | stx | sty => simp [store_eq]
  | inc | dec => simp [addToMemory_eq]
  | aslMem | lsrMem | rolMem | rorMem => simp [shiftTarget_mem]
  -- the stack and the pointers of jumps
  | pha | php => simp [State.push_eq]
  | pla | plp => simp [State.pull_eq]
  | jsr => simp [State.pushWord_eq]
  | rts => simp [State.pullWord_eq]
  | brk => simp [State.takeTrap_eq, State.read16_eq, State.pushWord_eq, State.push_eq]
  | rti => simp [State.returnFromTrap_eq]
  | jmpInd => simp [State.resolveInd_eq]
  -- no access
  | bpl | bmi | bvc | bvs | bcc | bcs | bne | beq => simp [branchIf_eq]
  | aslAcc | lsrAcc | rolAcc | rorAcc => simp [shiftTarget_acc]
  | _ => rfl

/-- Settles O9: the count set after the fetch is the count the step returns. -/
theorem stepReturnsBaseCycles : Obligations.StepReturnsBaseCycles := by
  intro s t i rest hdecode h
  rw [stepRunsTheDecodedInstruction s i rest hdecode] at h
  exact exec_cycles h

/-! ## How many accesses a step makes -/

theorem MemMode.pointerReads_length (m : MemMode) (s : State) : (m.pointerReads s).length ≤ 2 := by
  cases m <;> simp [MemMode.pointerReads]

theorem Source.value_accesses_length (o : Source) (s : State) :
    (o.value s).2.out.accesses.length ≤ s.out.accesses.length + 3 := by
  cases o with
  | imm d8 => exact Nat.le_add_right _ _
  | mem m =>
    have hpointer := m.pointerReads_length s
    simp only [Source.value_mem, List.length_append, List.length_singleton]
    omega

theorem addToMemory_accesses_length {m : MemMode} {s : State} (hdirect : m.pointerReads s = []) (d : Byte) :
    (addToMemory d m s).out.accesses.length = s.out.accesses.length + 2 := by
  simp [addToMemory_eq, hdirect]

theorem shiftTarget_mem_accesses_length {m : MemMode} {s : State} (hdirect : m.pointerReads s = [])
    (f : Byte → Bool → Byte × Bool) : (shiftTarget f (.mem m) s).out.accesses.length = s.out.accesses.length + 2 := by
  simp [shiftTarget_mem, hdirect]

/-- A read-modify-write on memory makes two accesses: none of its modes has a pointer (R139, R197). -/
theorem exec_modify_accesses_length {i : Instr} {s t : State} (hi : i.mnemonic ∈ [.INC, .DEC, .ASL, .LSR, .ROL, .ROR])
    (hmem : i.mode ≠ .acc) (h : exec i s = .next t) : t.out.accesses.length = s.out.accesses.length + 2 := by
  cases i with
  | incZp | incZpx | incAbs | incAbx | decZp | decZpx | decAbs | decAbx =>
    cases h
    exact addToMemory_accesses_length rfl _
  | aslZp | aslZpx | aslAbs | aslAbx | lsrZp | lsrZpx | lsrAbs | lsrAbx
  | rolZp | rolZpx | rolAbs | rolAbx | rorZp | rorZpx | rorAbs | rorAbx =>
    cases h
    exact shiftTarget_mem_accesses_length rfl _
  | aslAcc | lsrAcc | rolAcc | rorAcc => exact absurd rfl hmem
  | _ => simp [Instr.mnemonic] at hi

/-- What an instruction fetches and what it accesses itself is at most six: of its own it makes at most three accesses, but for BRK,
which has one byte and makes five. -/
theorem exec_accesses_length {i : Instr} {s t : State} (h : exec i s = .next t) :
    t.out.accesses.length + i.length ≤ s.out.accesses.length + 6 := by
  have hlen := i.length_le_three
  cases shape_of_exec h with
  | brk _ hm =>
    have hone := Instr.length_brk hm
    simp only [State.takeTrap_eq, State.read16_eq, State.pushWord_eq, State.push_eq, List.length_append, List.length_singleton]
    omega
  -- at most three: the two bytes of a pointer and the byte at the effective address
  | lda _ o | ldx _ o | ldy _ o | adc _ o | sbc _ o | and _ o | ora _ o | eor _ o | cmp _ o | cpx _ o | cpy _ o =>
    have hvalue := o.value_accesses_length s
    simp only [loadA_eq, loadX_eq, loadY_eq, addWithCarry_eq, subtractWithBorrow_eq, logicA_eq, compareWith_eq]
    omega
  | bit _ m =>
    have hvalue := (Source.mem m).value_accesses_length s
    simp only [testBits_eq]
    omega
  | sta _ m | stx _ m | sty _ m =>
    have hpointer := m.pointerReads_length s
    simp only [store_eq, List.length_append, List.length_singleton]
    omega
  -- three, two or one
  | inc _ _ hm hacc | dec _ _ hm hacc
  | aslMem _ _ hm hacc | lsrMem _ _ hm hacc | rolMem _ _ hm hacc | rorMem _ _ hm hacc =>
    have htwo := exec_modify_accesses_length (by simp [hm]) hacc h
    omega
  | rti => simp only [State.returnFromTrap_eq, List.length_append, List.length_singleton]; omega
  | jsr => simp only [State.pushWord_eq, List.length_append, List.length_singleton]; omega
  | rts => simp only [State.pullWord_eq, List.length_append, List.length_singleton]; omega
  | jmpInd => simp only [State.resolveInd_eq, List.length_append, List.length_singleton]; omega
  | pha | php => simp only [State.push_eq, List.length_append, List.length_singleton]; omega
  | pla | plp => simp only [State.pull_eq, List.length_append, List.length_singleton]; omega
  -- none
  | bpl | bmi | bvc | bvs | bcc | bcs | bne | beq => simp only [branchIf_eq]; omega
  | _ => exact Nat.add_le_add_left (Nat.le_trans hlen (by decide)) _

@[simp] theorem State.fetches_length (s : State) (n : Nat) : (s.fetches n).length = n := by simp [State.fetches]

/-- The first fetch is the opcode's. -/
theorem State.fetches_succ (s : State) (n : Nat) :
    ∃ operands, s.fetches (n + 1) = .read s.pc (s.bus.peek s.pc) :: operands := by
  rw [State.fetches, List.range_succ_eq_map, List.map_cons, BitVec.add_zero, State.byteAt_zero]
  exact ⟨_, rfl⟩

/-- Settles O10: a step lists its fetches and then its instruction's accesses. -/
theorem stepMakesAtMostSixAccesses : Obligations.StepMakesAtMostSixAccesses := by
  intro s t h
  obtain ⟨i, hstep⟩ := step_exec s
  rw [hstep] at h
  have hbound := exec_accesses_length h
  obtain ⟨more, hmore, -⟩ := exec_accessed h
  rw [State.fetched_accesses] at hbound hmore
  rw [State.fetches_length] at hbound
  obtain ⟨n, hn⟩ := Nat.exists_eq_add_one.mpr i.length_pos
  obtain ⟨operands, hfirst⟩ := s.fetches_succ n
  exact ⟨by omega, operands ++ more, by rw [hmore, hn, hfirst, List.cons_append]⟩

/-! ## Effective addresses in numbers -/

/-- Settles O29: each sum in numbers, in a byte or in a word. -/
theorem directModesResolve : Obligations.DirectModesResolve := fun s d8 addr =>
  ⟨congrArg (·, s) (zext16_eq_ofNat d8), congrArg (·, s) (zext16_add d8 s.x), congrArg (·, s) (zext16_add d8 s.y), rfl,
   congrArg (·, s) (add_zext16 addr s.x), congrArg (·, s) (add_zext16 addr s.y)⟩

/-- The word a zero-page pointer holds, in numbers. -/
theorem State.readZpPointer_ofNat (s : State) (z : Byte) :
    let at0 := BitVec.ofNat 16 z.toNat
    let at1 := BitVec.ofNat 16 ((z.toNat + 1) % 256)
    let lo := s.bus.read at0
    let hi := lo.2.read at1
    s.readZpPointer z = (BitVec.ofNat 16 (hi.1.toNat * 256 + lo.1.toNat),
      { s with bus := hi.2, out := Forms.also s.out [.read at0 lo.1, .read at1 hi.1] }) := by
  have hnext : zext16 (z + 1) = BitVec.ofNat 16 ((z.toNat + 1) % 256) := zext16_add z 1
  simp only [State.readZpPointer_eq, hnext, zext16_eq_ofNat z, joinBytes_eq_ofNat, Forms.also, List.append_assoc]
  rfl

/-- Settles O30: both modes read one pointer, at the index sum or before it. -/
theorem pointerModesResolve : Obligations.PointerModesResolve := by
  intro s d8
  constructor
  · have hsum : (d8 + s.x).toNat = (d8.toNat + s.x.toNat) % 256 := BitVec.toNat_add _ _
    have hnext : ((d8.toNat + s.x.toNat) % 256 + 1) % 256 = (d8.toNat + s.x.toNat + 1) % 256 := Nat.mod_add_mod _ _ _
    simp only [MemMode.resolve, State.readZpPointer_ofNat, hsum, hnext]
  · simp only [MemMode.resolve, State.readZpPointer_ofNat, add_zext16, ← joinBytes_eq_ofNat, joinBytes_toNat]

/-- Settles O31: one read of the bus the pointer reads left. -/
theorem operandValueIsOneRead : Obligations.OperandValueIsOneRead :=
  fun s d8 m => ⟨Source.value_imm d8 s, by simp [Source.value_mem, MemMode.resolve_state, Forms.also]⟩

/-- Settles O32: the offset is extended by its sign, and the sum wraps. -/
theorem branchTargetIsSignedOffset : Obligations.BranchTargetIsSignedOffset := by
  intro s d8
  rw [branchTarget, BitVec.toNat_add, sext16_toNat]
  refine ⟨fun h => ?_, fun h => ?_⟩
  · rw [if_neg (Nat.not_le.mpr h)]
  · rw [if_pos h]
    omega

end Sys2Proof.Machine

/-! # Proofs of the load and store family (41_load_store)

First the meaning of every form of a mnemonic, said once for each list of `Forms`; then what a single write at an effective address
does; then the statements. -/

namespace Sys2Proof.Machine

/-! ## The meaning of every form -/

section EveryForm
variable {d8 : Byte} {addr : Word}

/-- Two meanings agree on every form of a list where the lists of meanings are equal. -/
theorem exec_of_forms {α : Type} {forms : List (Instr × α)} {meaning : α → State → State}
    (h : (forms.map fun f => exec f.1) = forms.map fun f s => .next (meaning f.2 s)) {f : Instr × α} (hf : f ∈ forms)
    (s : State) : exec f.1 s = .next (meaning f.2 s) := congrFun (List.map_inj_left.mp h f hf) s

section Loads
variable {f : Instr × Source}

theorem exec_lda (hf : f ∈ Forms.lda d8 addr) (s : State) : exec f.1 s = .next (loadA f.2 s) :=
  exec_of_forms rfl hf s

theorem exec_ldx (hf : f ∈ Forms.ldx d8 addr) (s : State) : exec f.1 s = .next (loadX f.2 s) :=
  exec_of_forms rfl hf s

theorem exec_ldy (hf : f ∈ Forms.ldy d8 addr) (s : State) : exec f.1 s = .next (loadY f.2 s) :=
  exec_of_forms rfl hf s

end Loads

variable {f : Instr × MemMode}

theorem exec_stx (hf : f ∈ Forms.stx d8 addr) (s : State) : exec f.1 s = .next (store f.2 s.x s) :=
  exec_of_forms (meaning := fun m s => store m s.x s) rfl hf s

theorem exec_sty (hf : f ∈ Forms.sty d8 addr) (s : State) : exec f.1 s = .next (store f.2 s.y s) :=
  exec_of_forms (meaning := fun m s => store m s.y s) rfl hf s

theorem exec_inc (hf : f ∈ Forms.inc d8 addr) (s : State) : exec f.1 s = .next (addToMemory 1 f.2 s) :=
  exec_of_forms rfl hf s

theorem exec_dec (hf : f ∈ Forms.dec d8 addr) (s : State) : exec f.1 s = .next (addToMemory (-1) f.2 s) :=
  exec_of_forms rfl hf s

theorem exec_aslMem (hf : f ∈ Forms.aslMem d8 addr) (s : State) :
    exec f.1 s = .next (shiftTarget shiftAsl (.mem f.2) s) :=
  exec_of_forms (meaning := fun m => shiftTarget shiftAsl (.mem m)) rfl hf s

theorem exec_lsrMem (hf : f ∈ Forms.lsrMem d8 addr) (s : State) :
    exec f.1 s = .next (shiftTarget shiftLsr (.mem f.2) s) :=
  exec_of_forms (meaning := fun m => shiftTarget shiftLsr (.mem m)) rfl hf s

theorem exec_rolMem (hf : f ∈ Forms.rolMem d8 addr) (s : State) :
    exec f.1 s = .next (shiftTarget shiftRol (.mem f.2) s) :=
  exec_of_forms (meaning := fun m => shiftTarget shiftRol (.mem m)) rfl hf s

theorem exec_rorMem (hf : f ∈ Forms.rorMem d8 addr) (s : State) :
    exec f.1 s = .next (shiftTarget shiftRor (.mem f.2) s) :=
  exec_of_forms (meaning := fun m => shiftTarget shiftRor (.mem m)) rfl hf s

end EveryForm

/-! ## One write, at one address -/

/-- From `s` to `t` the accesses are reads and then one write, at `ea`, and no byte that memory answers has changed but there. -/
def WritesOnceAt (s t : State) (ea : Word) : Prop :=
  (∃ reads v, Forms.newAccesses s t = reads ++ [.write ea v] ∧ ∀ a w, .write a w ∉ reads) ∧
  Forms.keptBut s.bus t.bus [ea]

/-- A write after nothing but reads. -/
theorem Accessed.writesOnceAt {s r : State} (h : Accessed False s r) (ea : Word) (v : Byte) :
    WritesOnceAt s (r.memWrite ea v) ea := by
  obtain ⟨reads, hreads, hreplay, hnone⟩ := h
  have hkept : Forms.keptBut s.bus r.bus [ea] := keptBut_of_replay (fun a w ha => (hnone a w ha).elim) hreplay
  refine ⟨⟨reads, v, newAccesses_of_append ?_, hnone⟩, keptBut_write hkept List.mem_cons_self v⟩
  rw [State.memWrite_accesses, hreads, List.append_assoc]

section WritesOnce
variable (m : MemMode) (s : State)

/-- A store reads its pointer at most. -/
theorem store_writesOnceAt (v : Byte) : WritesOnceAt s (store m v s) (m.resolve s).1 :=
  ((Accessed.nothing False s).resolve m).writesOnceAt _ v

/-- A read-modify-write reads its effective address before it. -/
theorem State.modify_writesOnceAt (g : Byte → Status → Byte × Status) : WritesOnceAt s (s.modify m g) (m.resolve s).1 :=
  (((Accessed.nothing False s).resolve m).memRead _).writesOnceAt _ _

theorem addToMemory_writesOnceAt (d : Byte) : WritesOnceAt s (addToMemory d m s) (m.resolve s).1 :=
  s.modify_writesOnceAt m _

theorem shiftTarget_mem_writesOnceAt (g : Byte → Bool → Byte × Bool) :
    WritesOnceAt s (shiftTarget g (.mem m) s) (m.resolve s).1 := s.modify_writesOnceAt m _

end WritesOnce

/-- Every form that stores completes, with its one write at the effective address of its mode. -/
theorem exec_storing {d8 : Byte} {addr : Word} {f : Instr × MemMode} (hf : f ∈ Forms.storing d8 addr) (s : State) :
    ∃ t, exec f.1 s = .next t ∧ WritesOnceAt s t (f.2.resolve s).1 := by
  simp only [Forms.storing, List.mem_append, or_assoc] at hf
  rcases hf with hf | hf | hf | hf | hf | hf | hf | hf | hf
  · exact ⟨_, exec_sta hf s, store_writesOnceAt f.2 s s.a⟩
  · exact ⟨_, exec_stx hf s, store_writesOnceAt f.2 s s.x⟩
  · exact ⟨_, exec_sty hf s, store_writesOnceAt f.2 s s.y⟩
  · exact ⟨_, exec_inc hf s, addToMemory_writesOnceAt f.2 s 1⟩
  · exact ⟨_, exec_dec hf s, addToMemory_writesOnceAt f.2 s (-1)⟩
  · exact ⟨_, exec_aslMem hf s, shiftTarget_mem_writesOnceAt f.2 s shiftAsl⟩
  · exact ⟨_, exec_lsrMem hf s, shiftTarget_mem_writesOnceAt f.2 s shiftLsr⟩
  · exact ⟨_, exec_rolMem hf s, shiftTarget_mem_writesOnceAt f.2 s shiftRol⟩
  · exact ⟨_, exec_rorMem hf s, shiftTarget_mem_writesOnceAt f.2 s shiftRor⟩

/-- Settles O24: a completed form's state is the one with the one write. -/
theorem storingChangesOnlyEffectiveAddress : Obligations.StoringChangesOnlyEffectiveAddress := by
  intro s t d8 addr f hf h
  obtain ⟨u, hu, hwrites⟩ := exec_storing hf s
  obtain rfl : u = t := Host.Outcome.next.inj (hu.symm.trans h)
  exact hwrites

/-! ## What a store does -/

section Store
variable (m : MemMode) (v : Byte) (s : State)

@[simp] theorem store_a : (store m v s).a = s.a := by rw [store_eq]

@[simp] theorem store_x : (store m v s).x = s.x := by rw [store_eq]

@[simp] theorem store_y : (store m v s).y = s.y := by rw [store_eq]

/-- ROM lies in the frame of a store to it: that frame leaves out RAM cells alone. -/
theorem store_peek_rom (h : (s.bus.place (m.resolve s).1).kind = .rom ∨ (s.bus.place (m.resolve s).1).kind = .romPort) :
    (store m v s).bus.peek (m.resolve s).1 = s.bus.peek (m.resolve s).1 := by
  obtain ⟨-, -, hpeek⟩ := store_writesOnceAt m s v
  refine hpeek _ (fun hdevice => ?_) fun w hw hram => ?_
  · simp [hdevice] at h
  · obtain rfl : w = (m.resolve s).1 := List.mem_singleton.mp hw
    simp [hram] at h

theorem store_readsBack : Forms.readsBack s (store m v s) (m.resolve s).1 v :=
  ⟨fun hram => store_peek hram v, store_peek_rom m v s⟩

/-- The bus and the output of a store, through the state its mode's resolution leaves. -/
theorem store_eq_resolve : store m v s = { s with
    bus := (m.resolve s).2.bus.write (m.resolve s).1 v,
    out := Forms.also (m.resolve s).2.out [.write (m.resolve s).1 v] } := by
  simp only [store_eq, MemMode.resolve_state, Forms.also]

end Store

/-- Settles O25: each form is a store, which keeps the registers and reads back. -/
theorem storedByteReadsBack : Obligations.StoredByteReadsBack := fun s _ _ _ =>
  ⟨fun f hf h => Host.Outcome.next.inj ((exec_sta hf s).symm.trans h) ▸ ⟨store_a f.2 s.a s, store_readsBack f.2 s.a s⟩,
   fun f hf h => Host.Outcome.next.inj ((exec_stx hf s).symm.trans h) ▸ ⟨store_x f.2 s.x s, store_readsBack f.2 s.x s⟩,
   fun f hf h => Host.Outcome.next.inj ((exec_sty hf s).symm.trans h) ▸ ⟨store_y f.2 s.y s, store_readsBack f.2 s.y s⟩⟩

/-- Settles O33: the meaning of every form, as one record update of the state. -/
theorem loadsAndStores : Obligations.LoadsAndStores := fun s _ _ =>
  ⟨fun f hf => by rw [exec_lda hf, loadA_eq, Status.setNZ_eq_withNZ],
   fun f hf => by rw [exec_ldx hf, loadX_eq, Status.setNZ_eq_withNZ],
   fun f hf => by rw [exec_ldy hf, loadY_eq, Status.setNZ_eq_withNZ],
   fun f hf => by rw [exec_sta hf, store_eq_resolve],
   fun f hf => by rw [exec_stx hf, store_eq_resolve],
   fun f hf => by rw [exec_sty hf, store_eq_resolve]⟩

end Sys2Proof.Machine

/-! # Proofs of the transfer family (42_transfer)

First the equation of each transfer, as one record update of the state; then the statement. -/

namespace Sys2Proof.Machine

/-! ## The meaning of every transfer -/

section Transfers
variable (s : State)

theorem exec_tax : exec .tax s = .next { s with x := s.a, p := s.p.setNZ s.a } := rfl

theorem exec_tay : exec .tay s = .next { s with y := s.a, p := s.p.setNZ s.a } := rfl

theorem exec_txa : exec .txa s = .next { s with a := s.x, p := s.p.setNZ s.x } := rfl

theorem exec_tya : exec .tya s = .next { s with a := s.y, p := s.p.setNZ s.y } := rfl

theorem exec_tsx : exec .tsx s = .next { s with x := s.sp, p := s.p.setNZ s.sp } := rfl

theorem exec_txs : exec .txs s = .next { s with sp := s.x } := rfl

end Transfers

/-- Settles O34: five transfers derive N and Z by `SetNZ`, which in numbers is `withNZ`; TXS has no flags to derive. -/
theorem registerTransfers : Obligations.RegisterTransfers := fun s =>
  ⟨by rw [exec_tax, Status.setNZ_eq_withNZ],
   by rw [exec_tay, Status.setNZ_eq_withNZ],
   by rw [exec_txa, Status.setNZ_eq_withNZ],
   by rw [exec_tya, Status.setNZ_eq_withNZ],
   by rw [exec_tsx, Status.setNZ_eq_withNZ],
   exec_txs s⟩

end Sys2Proof.Machine

/-! # Proofs of the increment and decrement family (43_increment_decrement)

First the sums in numbers, then a read-modify-write as `Forms.modified` gives it, then the equation of each register form; then the
statement. -/

namespace Sys2Proof.Machine

/-! ## Plus and minus 1 in numbers -/

section PlusMinusOne
variable (v : Byte)

theorem up_eq_add_one : Forms.up v = v + 1 := BitVec.eq_of_toNat_eq (by simp [Forms.up, BitVec.toNat_add])

theorem down_eq_sub_one : Forms.down v = v - 1 :=
  BitVec.eq_of_toNat_eq (by simp [Forms.down, BitVec.toNat_sub, Nat.add_comm])

end PlusMinusOne

/-! ## A read-modify-write in numbers -/

section Modified
variable {m : MemMode} {s : State}

/-- A modification whose result and status are given in numbers for every byte it may read. -/
theorem State.modify_eq_modified {f : Byte → Status → Byte × Status} {r : Byte → Byte} {carry : Byte → Bool}
    (h : ∀ v, f v s.p = (r v, { Forms.withNZ s.p (r v) with c := carry v })) :
    s.modify m f = Forms.modified s m r carry := by
  simp only [State.modify_eq, Forms.modified, MemMode.resolve_state, Forms.also, h, List.append_assoc]
  rfl

/-- Adding to memory keeps the carry: `SetNZ` writes N and Z alone. -/
theorem addToMemory_eq_modified {d : Byte} {r : Byte → Byte} (h : ∀ v, r v = v + d) :
    addToMemory d m s = Forms.modified s m r (fun _ => s.p.c) :=
  State.modify_eq_modified fun v => by rw [h, Status.setNZ_eq_withNZ]; rfl

end Modified

/-! ## The meaning of every register form -/

section RegisterForms
variable (s : State)

theorem exec_inx : exec .inx s = .next { s with x := s.x + 1, p := s.p.setNZ (s.x + 1) } := rfl

theorem exec_iny : exec .iny s = .next { s with y := s.y + 1, p := s.p.setNZ (s.y + 1) } := rfl

theorem exec_dex : exec .dex s = .next { s with x := s.x - 1, p := s.p.setNZ (s.x - 1) } := rfl

theorem exec_dey : exec .dey s = .next { s with y := s.y - 1, p := s.p.setNZ (s.y - 1) } := rfl

end RegisterForms

/-- Settles O35: a register form derives N and Z from the sum; a memory form modifies the byte at its effective address. -/
theorem incrementsAndDecrements : Obligations.IncrementsAndDecrements := fun s _ _ =>
  ⟨by rw [exec_inx, Status.setNZ_eq_withNZ, up_eq_add_one],
   by rw [exec_iny, Status.setNZ_eq_withNZ, up_eq_add_one],
   by rw [exec_dex, Status.setNZ_eq_withNZ, down_eq_sub_one],
   by rw [exec_dey, Status.setNZ_eq_withNZ, down_eq_sub_one],
   fun f hf => by rw [exec_inc hf, addToMemory_eq_modified up_eq_add_one],
   fun f hf => by
    rw [exec_dec hf, addToMemory_eq_modified fun v => (down_eq_sub_one v).trans (BitVec.sub_eq_add_neg v 1)]⟩

end Sys2Proof.Machine

/-! # Proofs of the compare family (44_compare)

First the flags of a compare in numbers, then the meaning of every form; then the statement. -/

namespace Sys2Proof.Machine

/-! ## The flags of a compare in numbers -/

theorem Status.compare_eq_compared (p : Status) (r v : Byte) : p.compare r v = Forms.compared p r v := by
  have hz : (r == v) = decide (r.toNat = v.toNat) := by simp [BitVec.toNat_eq, beq_eq_decide]
  have hdiff : (r - v).toNat = (r.toNat + 256 - v.toNat) % 256 := by
    rw [BitVec.toNat_sub', ← Nat.add_sub_assoc v.isLt.le]
  rw [Status.compare, Forms.compared, getLsbD_seven, hz, hdiff]

/-- A compare as the one record update, with the flags in numbers. -/
theorem compareWith_eq_compared (r : Byte) (o : Source) (s : State) : compareWith r o s = { s with
    p := Forms.compared s.p r (o.value s).1, bus := (o.value s).2.bus, out := (o.value s).2.out } := by
  rw [compareWith_eq, Status.compare_eq_compared]

/-! ## The meaning of every form -/

section Compares
variable {d8 : Byte} {addr : Word} {f : Instr × Source}

theorem exec_cmp (hf : f ∈ Forms.cmp d8 addr) (s : State) : exec f.1 s = .next (compareWith s.a f.2 s) :=
  exec_of_forms (meaning := fun o s => compareWith s.a o s) rfl hf s

theorem exec_cpx (hf : f ∈ Forms.cpx d8 addr) (s : State) : exec f.1 s = .next (compareWith s.x f.2 s) :=
  exec_of_forms (meaning := fun o s => compareWith s.x o s) rfl hf s

theorem exec_cpy (hf : f ∈ Forms.cpy d8 addr) (s : State) : exec f.1 s = .next (compareWith s.y f.2 s) :=
  exec_of_forms (meaning := fun o s => compareWith s.y o s) rfl hf s

end Compares

/-- Settles O36: every form compares its register with the operand, and the flags of a compare in numbers are `compared`. -/
theorem compares : Obligations.Compares := fun s _ _ =>
  ⟨fun f hf => by rw [exec_cmp hf, compareWith_eq_compared],
   fun f hf => by rw [exec_cpx hf, compareWith_eq_compared],
   fun f hf => by rw [exec_cpy hf, compareWith_eq_compared]⟩

end Sys2Proof.Machine

/-! # Proofs of the branch family (45_branch)

First the shared meaning by the value of the flag it tests, then the meaning of every branch; then the statement. -/

namespace Sys2Proof.Machine

/-! ## The shared meaning, by the value a branch tests for -/

section BranchIf
variable (flag : Bool) (d8 : Byte) (s : State)

theorem branchIf_set : branchIf flag d8 s = if flag = true then { s with pc := branchTarget d8 s } else s := rfl

theorem branchIf_clear : branchIf (!flag) d8 s = if flag = false then { s with pc := branchTarget d8 s } else s := by
  simp only [branchIf, Bool.not_eq_true']

end BranchIf

/-! ## The meaning of every branch -/

section Branches
variable (d8 : Byte) (s : State)

theorem exec_bpl : exec (.bpl d8) s = .next (branchIf (!s.p.n) d8 s) := rfl

theorem exec_bmi : exec (.bmi d8) s = .next (branchIf s.p.n d8 s) := rfl

theorem exec_bvc : exec (.bvc d8) s = .next (branchIf (!s.p.v) d8 s) := rfl

theorem exec_bvs : exec (.bvs d8) s = .next (branchIf s.p.v d8 s) := rfl

theorem exec_bcc : exec (.bcc d8) s = .next (branchIf (!s.p.c) d8 s) := rfl

theorem exec_bcs : exec (.bcs d8) s = .next (branchIf s.p.c d8 s) := rfl

theorem exec_bne : exec (.bne d8) s = .next (branchIf (!s.p.z) d8 s) := rfl

theorem exec_beq : exec (.beq d8) s = .next (branchIf s.p.z d8 s) := rfl

end Branches

/-- Settles O37: four branches test that their flag is clear, four that it is set; the table row of each is read off. -/
theorem conditionalBranches : Obligations.ConditionalBranches := by
  intro s d8
  simp only [List.forall_mem_cons]
  exact
    ⟨⟨by rw [exec_bpl, branchIf_clear], rfl, rfl, rfl⟩,
     ⟨by rw [exec_bmi, branchIf_set], rfl, rfl, rfl⟩,
     ⟨by rw [exec_bvc, branchIf_clear], rfl, rfl, rfl⟩,
     ⟨by rw [exec_bvs, branchIf_set], rfl, rfl, rfl⟩,
     ⟨by rw [exec_bcc, branchIf_clear], rfl, rfl, rfl⟩,
     ⟨by rw [exec_bcs, branchIf_set], rfl, rfl, rfl⟩,
     ⟨by rw [exec_bne, branchIf_clear], rfl, rfl, rfl⟩,
     ⟨by rw [exec_beq, branchIf_set], rfl, rfl, rfl⟩,
     List.forall_mem_nil _⟩

end Sys2Proof.Machine

/-! # Proofs of the jump, call and return family (46_jump_call_return)

First the meaning of each instruction, through the shared operation it is made of; then the two jumps, the call, the return, and the
return after the call. -/

namespace Sys2Proof.Machine

/-! ## The meaning of jump, call and return -/

section JumpCallReturn
variable (addr : Word) (s : State)

theorem exec_jmpAbs : exec (.jmpAbs addr) s = .next { s with pc := addr } := rfl

theorem exec_jmpInd : exec (.jmpInd addr) s = .next { (s.resolveInd addr).2 with pc := (s.resolveInd addr).1 } := rfl

theorem exec_jsr : exec (.jsr addr) s = .next { s.pushWord (s.pc - 1) with pc := addr } := rfl

theorem exec_rts : exec .rts s = .next { s.pullWord.2 with pc := s.pullWord.1 + 1 } := rfl

end JumpCallReturn

/-! ## Jumps -/

/-- The next address within the same page, in numbers (R103). -/
theorem joinBytes_highByte_lowByte_add_one (w : Word) :
    joinBytes (highByte w) (lowByte w + 1) = BitVec.ofNat 16 (w.toNat / 256 * 256 + (w.toNat + 1) % 256) := by
  have hlow : (lowByte w + 1).toNat = (w.toNat + 1) % 256 := by
    rw [BitVec.toNat_add, lowByte_toNat]; exact Nat.mod_add_mod _ _ _
  rw [joinBytes_eq_ofNat, highByte_toNat, hlow]

/-- Settles O38: the pointer's two reads are those of `resolveInd`; each word stands in numbers as its two bytes. -/
theorem jumps : Obligations.Jumps := by
  intro s addr
  refine ⟨exec_jmpAbs addr s, ?_⟩
  simp only [exec_jmpInd, State.resolveInd_eq, ← joinBytes_highByte_lowByte_add_one, ← joinBytes_eq_ofNat, Forms.also,
    List.append_assoc, List.cons_append, List.nil_append, Bus.read_value]

/-! ## Call -/

theorem stackBelow_two (s : State) : Forms.stackBelow s 2 = [stackAddr s.sp, stackAddr (s.sp - 1)] := by
  simp [Forms.stackBelow, List.range_succ]

section PushWord
variable (s : State) (w : Word)

theorem State.pushWord_sp_add_one : (s.pushWord w).sp + 1 = s.sp - 1 := BitVec.sub_add_cancel (s.sp - 1) 1

theorem State.pushWord_sp_add_two : (s.pushWord w).sp + 2 = s.sp := by
  rw [State.pushWord_eq]
  bv_omega

end PushWord

/-- Two bytes written to plain RAM, at addresses that are no mirrors of each other, both read back. -/
theorem Bus.peek_write_write {b : Bus} {a c : Word} (h : Forms.plainRam b [a, c]) (v w : Byte) :
    ((b.write a v).write c w).peek c = w ∧ ((b.write a v).write c w).peek a = v := by
  obtain ⟨hram, hcells⟩ := h
  have ha : (b.place a).kind = .ram := hram a (by simp)
  have hc : (b.place c).kind = .ram := hram c (by simp)
  have hcell : (b.place a).cell ≠ (b.place c).cell := by simpa using hcells
  constructor
  · exact Bus.peek_write_same (by simpa using hc) w
  · rw [Bus.peek_write _ _ _ _ (by simp [ha]), if_neg (by simp [hcell]), Bus.peek_write_same ha]

/-- A word pushed to plain RAM stands above S, the low byte first. -/
theorem State.pushWord_peek {s : State} (h : Forms.plainRam s.bus (Forms.stackBelow s 2)) (w : Word) :
    (s.pushWord w).bus.peek (stackAddr ((s.pushWord w).sp + 1)) = lowByte w ∧
    (s.pushWord w).bus.peek (stackAddr ((s.pushWord w).sp + 2)) = highByte w := by
  rw [State.pushWord_sp_add_one, State.pushWord_sp_add_two]
  exact Bus.peek_write_write (stackBelow_two s ▸ h) (highByte w) (lowByte w)

/-- Settles O40: the state is that of `pushWord`, and so is what the two locations read. -/
theorem jsrPushesReturnAddress : Obligations.JsrPushesReturnAddress := by
  intro s addr ret
  refine ⟨_, exec_jsr addr s, ?_, fun h => State.pushWord_peek h ret⟩
  have hsp : s.sp - 1 - 1 = s.sp - 2 := by bv_omega
  simp only [State.pushWord_eq, hsp, Forms.also, List.append_assoc, List.cons_append, List.nil_append, ret]

/-! ## Return -/

theorem byte_add_one_add_one (b : Byte) : b + 1 + 1 = b + 2 := BitVec.add_assoc b 1 1

theorem State.pullWord_sp (s : State) : s.pullWord.2.sp = s.sp + 2 := byte_add_one_add_one s.sp

/-- One past a word, in numbers. -/
theorem joinBytes_add_one (hi lo : Byte) :
    joinBytes hi lo + 1 = BitVec.ofNat 16 ((hi.toNat * 256 + lo.toNat + 1) % 65536) :=
  BitVec.eq_of_toNat_eq (by simp [BitVec.toNat_add, joinBytes_toNat])

/-- Settles O41: the two reads are those of `pullWord`. -/
theorem rtsPullsReturnAddress : Obligations.RtsPullsReturnAddress := by
  intro s
  simp only [exec_rts, State.pullWord_eq, byte_add_one_add_one, joinBytes_add_one, Forms.also, List.append_assoc, List.cons_append,
    List.nil_append, Bus.read_value]

/-! ## Return after call -/

/-- The word pulled is the one whose bytes the bus gives. -/
theorem State.pullWord_of_pullsBack {r : State} {w : Word} (h : Forms.pullsBack r [lowByte w, highByte w]) :
    r.pullWord.1 = w := by
  obtain ⟨hlow, hhigh, -⟩ := h
  rw [State.pullWord, hlow, hhigh, joinBytes_highByte_lowByte]

/-- The bytes of a word left in memory above S are what the next two pulls get: the first read changes no byte that memory answers. -/
theorem pullsBack_word {r : State} {w : Word} (hmemory : (r.bus.place (stackAddr (r.sp + 2))).kind ≠ .device)
    (hlow : r.bus.peek (stackAddr (r.sp + 1)) = lowByte w) (hhigh : r.bus.peek (stackAddr (r.sp + 2)) = highByte w) :
    Forms.pullsBack r [lowByte w, highByte w] := by
  refine ⟨hlow, ?_, trivial⟩
  simp only [State.pull_eq, byte_add_one_add_one, Bus.peek_read _ _ _ hmemory, hhigh]

/-- What `pushWord` left in plain RAM is what `pullWord` gets. -/
theorem pullsBack_of_stackLeft {s t r : State} {w : Word} (hbus : t.bus = (s.pushWord w).bus)
    (hsp : r.sp = (s.pushWord w).sp) (h : Forms.stackLeft s t r 2) : Forms.pullsBack r [lowByte w, highByte w] := by
  obtain ⟨hplain, hmap, hkept⟩ := h
  obtain ⟨hlow, hhigh⟩ := State.pushWord_peek hplain w
  obtain ⟨hram, -⟩ := hplain
  have hlowBelow : stackAddr ((s.pushWord w).sp + 1) ∈ Forms.stackBelow s 2 := by
    simp only [stackBelow_two, s.pushWord_sp_add_one w, List.mem_cons, true_or, or_true]
  have hhighBelow : stackAddr ((s.pushWord w).sp + 2) ∈ Forms.stackBelow s 2 := by
    simp only [stackBelow_two, s.pushWord_sp_add_two w, List.mem_cons, true_or]
  have hplace : ∀ a, r.bus.place a = s.bus.place a := Bus.place_congr (by simp [hmap, hbus, State.pushWord_eq])
  refine pullsBack_word ?_ ?_ ?_ <;> rw [hsp]
  · rw [hplace, hram _ hhighBelow]
    decide
  · rw [hkept _ hlowBelow, hbus, hlow]
  · rw [hkept _ hhighBelow, hbus, hhigh]

/-- Settles O42: both ways the two pulls get the address JSR pushed, and RTS adds the 1 back. -/
theorem rtsReturnsAfterJsr : Obligations.RtsReturnsAfterJsr := by
  intro s t r addr h hsp hstack
  obtain rfl : { s.pushWord (s.pc - 1) with pc := addr } = t := Host.Outcome.next.inj h
  have hpulls : Forms.pullsBack r [lowByte (s.pc - 1), highByte (s.pc - 1)] :=
    hstack.elim id (pullsBack_of_stackLeft rfl hsp)
  refine ⟨_, exec_rts r, ?_, ?_⟩
  · rw [State.pullWord_of_pullsBack hpulls, BitVec.sub_add_cancel]
  · rw [State.pullWord_sp, hsp, State.pushWord_sp_add_two]

end Sys2Proof.Machine

/-! # Proofs of the flag set and clear family (47_flag_set_clear)

First the meaning of each instruction, as the update of its one flag; then the statement. -/

namespace Sys2Proof.Machine

/-! ## The meaning of every flag instruction -/

section FlagSetClear
variable (s : State)

theorem exec_clc : exec .clc s = .next { s with p := { s.p with c := false } } := rfl

theorem exec_sec : exec .sec s = .next { s with p := { s.p with c := true } } := rfl

theorem exec_cli : exec .cli s = .next { s with p := { s.p with i := false } } := rfl

theorem exec_sei : exec .sei s = .next { s with p := { s.p with i := true } } := rfl

theorem exec_clv : exec .clv s = .next { s with p := { s.p with v := false } } := rfl

theorem exec_cld : exec .cld s = .next { s with p := { s.p with d := false } } := rfl

theorem exec_sed : exec .sed s = .next { s with p := { s.p with d := true } } := rfl

end FlagSetClear

/-- Settles O43: C, I and D are each cleared by one instruction and set by another, V is only cleared. -/
theorem flagInstructions : Obligations.FlagInstructions := fun s =>
  ⟨exec_clc s, exec_sec s, exec_cli s, exec_sei s, exec_clv s, exec_cld s, exec_sed s⟩

end Sys2Proof.Machine

/-! # Proofs of the arithmetic, logic and shift family (48_alu_shift)

First the sum, the difference, the bit test and the four shift functions in numbers; then the meaning of every form; then the
statements. -/

namespace Sys2Proof.Machine

/-! ## The sum in numbers -/

section Sum
variable (a m : Byte) (c : Bool)

/-- Bit 8 of a sum of two bytes and a carry is its unsigned overflow. -/
theorem testBit_eight_sum :
    (a.toNat + m.toNat + c.toNat).testBit 8 = decide (255 < a.toNat + m.toNat + c.toNat) := by
  have ha := a.isLt
  have hm := m.isLt
  have hc := c.toNat_le
  rw [Nat.testBit_eq_decide_div_mod_eq, decide_eq_decide]
  omega

/-- Signed overflow: the two terms have one sign, and the sum has the other. -/
theorem signed_overflow_sum :
    ((a.getLsbD 7 == m.getLsbD 7) && ((BitVec.ofNat 8 (a.toNat + m.toNat + c.toNat)).getLsbD 7 != a.getLsbD 7)) =
      decide (a.toInt + m.toInt + c.toNat < -128 ∨ 127 < a.toInt + m.toInt + c.toNat) := by
  have ha := a.isLt
  have hm := m.isLt
  have hc := c.toNat_le
  rw [Bool.eq_iff_iff]
  simp only [getLsbD_seven, BitVec.toNat_ofNat, BitVec.toInt_eq_toNat_cond, Bool.and_eq_true, beq_iff_eq, bne_iff_ne, ne_eq,
    decide_eq_decide, decide_eq_true_eq]
  omega

end Sum

/-- `AddCore` in numbers. -/
theorem Status.addCore_eq (p : Status) (a m : Byte) :
    let sum := a.toNat + m.toNat + p.c.toNat
    let signed := a.toInt + m.toInt + p.c.toNat
    let r := BitVec.ofNat 8 sum
    p.addCore a m =
      (r, { Forms.withNZ p r with c := decide (255 < sum), v := decide (signed < -128 ∨ 127 < signed) }) := by
  simp only [Status.addCore, Status.setNZ_eq_withNZ, testBit_eight_sum, signed_overflow_sum]
  rfl

theorem ofNat_mod_byte (n : Nat) : BitVec.ofNat 8 (n % 256) = BitVec.ofNat 8 n :=
  BitVec.eq_of_toNat_eq (by simp)

/-! ## The difference in numbers -/

section Difference
variable (v : Byte)

/-- What SBC adds (R192) is the complement of the operand. -/
theorem xor_allOnes_byte : v ^^^ 0xFF = ~~~v := BitVec.xor_allOnes

theorem toNat_complement : (v ^^^ 0xFF).toNat = 255 - v.toNat := by rw [xor_allOnes_byte, BitVec.toNat_not]

theorem toInt_complement : (v ^^^ 0xFF).toInt = -v.toInt - 1 := by
  have hv := v.isLt
  simp only [BitVec.toInt_eq_toNat_cond, toNat_complement]
  omega

end Difference

/-- `AddCore` of the complement, in numbers: the carry in is 1 minus the borrow. -/
theorem Status.addCore_complement_eq (p : Status) (a v : Byte) :
    let borrow := 1 - p.c.toNat
    let signed := a.toInt - v.toInt - borrow
    let r := BitVec.ofNat 8 ((a.toNat + 512 - v.toNat - borrow) % 256)
    p.addCore a (v ^^^ 0xFF) =
      (r, { Forms.withNZ p r with
        c := decide (v.toNat + borrow ≤ a.toNat), v := decide (signed < -128 ∨ 127 < signed) }) := by
  have hv := v.isLt
  have hc := p.c.toNat_le
  have hresult : BitVec.ofNat 8 (a.toNat + (255 - v.toNat) + p.c.toNat) =
      BitVec.ofNat 8 ((a.toNat + 512 - v.toNat - (1 - p.c.toNat)) % 256) := by
    apply BitVec.eq_of_toNat_eq
    simp only [BitVec.toNat_ofNat]
    omega
  have hcarry : 255 < a.toNat + (255 - v.toNat) + p.c.toNat ↔ v.toNat + (1 - p.c.toNat) ≤ a.toNat := by omega
  have hsigned : a.toInt + (-v.toInt - 1) + p.c.toNat = a.toInt - v.toInt - ((1 - p.c.toNat : Nat) : Int) := by omega
  simp only [Status.addCore_eq, toNat_complement, toInt_complement, hresult, hcarry, hsigned]

/-! ## Logic and the bit test -/

theorem getLsbD_six (v : Byte) : v.getLsbD 6 = decide (64 ≤ v.toNat % 128) := by
  rw [BitVec.getLsbD, Nat.testBit_eq_decide_div_mod_eq, decide_eq_decide]
  omega

theorem getLsbD_zero (v : Byte) : v.getLsbD 0 = decide (v.toNat % 2 = 1) := by
  rw [BitVec.getLsbD, Nat.testBit_zero]

/-- The flags of BIT, in numbers. -/
theorem Status.bitTest_eq (p : Status) (a v : Byte) : p.bitTest a v =
    { p with z := decide (a &&& v = 0), n := decide (128 ≤ v.toNat), v := decide (64 ≤ v.toNat % 128) } := by
  rw [Status.bitTest, getLsbD_seven, getLsbD_six, beq_eq_decide]

/-! ## The shift functions in numbers -/

section Shifts
variable (v : Byte) (c : Bool)

theorem shiftAsl_eq : shiftAsl v c = (BitVec.ofNat 8 (2 * v.toNat % 256), decide (128 ≤ v.toNat)) := by
  have hdouble : v <<< 1 = BitVec.ofNat 8 (2 * v.toNat % 256) := by bv_omega
  rw [shiftAsl, getLsbD_seven, hdouble]

theorem shiftLsr_eq : shiftLsr v c = (BitVec.ofNat 8 (v.toNat / 2), decide (v.toNat % 2 = 1)) := by
  have hhalf : v >>> 1 = BitVec.ofNat 8 (v.toNat / 2) := by bv_omega
  rw [shiftLsr, getLsbD_zero, hhalf]

theorem bitAt_toNat {k : Nat} (hk : k < 8) : (bitAt c k).toNat = 2 ^ k * c.toNat := by
  cases c with
  | false => rfl
  | true => rw [bitAt_true, ← BitVec.twoPow_eq, BitVec.toNat_twoPow_of_lt hk, Bool.toNat_true, Nat.mul_one]

/-- The carry enters at bit 0, which the shift to the left has cleared. -/
theorem shiftLeft_or_bitAt : (v <<< 1) ||| bitAt c 0 = BitVec.ofNat 8 ((2 * v.toNat + c.toNat) % 256) := by
  have hapart : (v <<< 1) &&& bitAt c 0 = 0#8 := by
    ext j hj
    simp only [BitVec.getElem_and, BitVec.getElem_shiftLeft, bitAt_getElem _ _ _ hj]
    by_cases h : j = 0 <;> simp [h]
  have hbit := bitAt_toNat c (k := 0) (by decide)
  rw [← BitVec.add_eq_or_of_and_eq_zero _ _ hapart]
  bv_omega

/-- The carry enters at bit 7, which the shift to the right has cleared. -/
theorem shiftRight_or_bitAt : (v >>> 1) ||| bitAt c 7 = BitVec.ofNat 8 (v.toNat / 2 + 128 * c.toNat) := by
  have hapart : (v >>> 1) &&& bitAt c 7 = 0#8 := by
    ext j hj
    simp only [BitVec.getElem_and, BitVec.getElem_ushiftRight, bitAt_getElem _ _ _ hj]
    by_cases h : j = 7 <;> simp [h]
  have hbit := bitAt_toNat c (k := 7) (by decide)
  rw [← BitVec.add_eq_or_of_and_eq_zero _ _ hapart]
  bv_omega

theorem shiftRol_eq : shiftRol v c = (BitVec.ofNat 8 ((2 * v.toNat + c.toNat) % 256), decide (128 ≤ v.toNat)) := by
  rw [shiftRol, getLsbD_seven, shiftLeft_or_bitAt]

theorem shiftRor_eq : shiftRor v c = (BitVec.ofNat 8 (v.toNat / 2 + 128 * c.toNat), decide (v.toNat % 2 = 1)) := by
  rw [shiftRor, getLsbD_zero, shiftRight_or_bitAt]

end Shifts

/-- A shift whose result and carry are given in numbers for every byte, on A or on the byte at the effective address. -/
theorem shiftTarget_eq_shifted {f : Byte → Bool → Byte × Bool} {s : State} {r : Byte → Nat} {carry : Byte → Bool}
    (h : ∀ v, f v s.p.c = (BitVec.ofNat 8 (r v), carry v)) (o : Target) :
    shiftTarget f o s = Forms.shifted s o r carry := by
  cases o with
  | acc => rw [shiftTarget_acc, h, Status.setNZ_eq_withNZ]; rfl
  | mem m =>
    rw [shiftTarget, Forms.shifted, State.modify_eq_modified]
    intro v
    simp only [h, Status.setNZ_eq_withNZ]
    rfl

/-! ## The meaning of every form -/

section ArithmeticLogic
variable {d8 : Byte} {addr : Word} {f : Instr × Source}

theorem exec_adc (hf : f ∈ Forms.adc d8 addr) (s : State) : exec f.1 s = .next (addWithCarry f.2 s) :=
  exec_of_forms rfl hf s

theorem exec_sbc (hf : f ∈ Forms.sbc d8 addr) (s : State) : exec f.1 s = .next (subtractWithBorrow f.2 s) :=
  exec_of_forms rfl hf s

theorem exec_and (hf : f ∈ Forms.and d8 addr) (s : State) : exec f.1 s = .next (logicA (· &&& ·) f.2 s) :=
  exec_of_forms rfl hf s

theorem exec_ora (hf : f ∈ Forms.ora d8 addr) (s : State) : exec f.1 s = .next (logicA (· ||| ·) f.2 s) :=
  exec_of_forms rfl hf s

theorem exec_eor (hf : f ∈ Forms.eor d8 addr) (s : State) : exec f.1 s = .next (logicA (· ^^^ ·) f.2 s) :=
  exec_of_forms rfl hf s

theorem exec_bit {f : Instr × MemMode} (hf : f ∈ Forms.bit d8 addr) (s : State) : exec f.1 s = .next (testBits f.2 s) :=
  exec_of_forms rfl hf s

end ArithmeticLogic

section ShiftForms
variable {d8 : Byte} {addr : Word} {f : Instr × Target}

theorem exec_asl (hf : f ∈ Forms.shift .aslAcc (Forms.aslMem d8 addr)) (s : State) :
    exec f.1 s = .next (shiftTarget shiftAsl f.2 s) := exec_of_forms rfl hf s

theorem exec_lsr (hf : f ∈ Forms.shift .lsrAcc (Forms.lsrMem d8 addr)) (s : State) :
    exec f.1 s = .next (shiftTarget shiftLsr f.2 s) := exec_of_forms rfl hf s

theorem exec_rol (hf : f ∈ Forms.shift .rolAcc (Forms.rolMem d8 addr)) (s : State) :
    exec f.1 s = .next (shiftTarget shiftRol f.2 s) := exec_of_forms rfl hf s

theorem exec_ror (hf : f ∈ Forms.shift .rorAcc (Forms.rorMem d8 addr)) (s : State) :
    exec f.1 s = .next (shiftTarget shiftRor f.2 s) := exec_of_forms rfl hf s

end ShiftForms

/-! ## Arithmetic -/

/-- Settles O47: every form adds its operand by `AddCore`, whose sum needs no second reduction modulo 256. -/
theorem adcIsBinaryAddition : Obligations.AdcIsBinaryAddition := by
  intro s d8 addr f hf v sum signed r
  have hr : r = BitVec.ofNat 8 sum := ofNat_mod_byte sum
  rw [exec_adc hf, addWithCarry_eq, Status.addCore_eq, hr]

/-- Settles O48: every form adds the complement of its operand by `AddCore`. -/
theorem sbcIsBinarySubtraction : Obligations.SbcIsBinarySubtraction := by
  intro s d8 addr f hf v borrow signed r
  rw [exec_sbc hf, subtractWithBorrow_eq, Status.addCore_complement_eq]

/-- The flags of SBC with no borrow coming in are those of a compare, and V. -/
theorem Status.addCore_complement_compare {p : Status} (hc : p.c = true) (a v : Byte) :
    (p.addCore a (v ^^^ 0xFF)).2 = { p.compare a v with v := (p.addCore a (v ^^^ 0xFF)).2.v } := by
  have ha := a.isLt
  have hv := v.isLt
  have hresult : (a.toNat + 512 - v.toNat) % 256 = (a.toNat + 256 - v.toNat) % 256 := by omega
  have hzero : (a.toNat + 256 - v.toNat) % 256 = 0 ↔ a.toNat = v.toNat := by omega
  rw [Status.addCore_complement_eq, Status.compare_eq_compared]
  simp [Forms.compared, Forms.withNZ, hc, hresult, hzero]

/-- The eight forms of SBC and of CMP stand in one order of modes. -/
theorem sbc_zip_cmp {d8 : Byte} {addr : Word} {f : (Instr × Source) × (Instr × Source)}
    (hf : f ∈ (Forms.sbc d8 addr).zip (Forms.cmp d8 addr)) :
    f.1 ∈ Forms.sbc d8 addr ∧ f.2 ∈ Forms.cmp d8 addr ∧ f.1.2 = f.2.2 := by
  obtain ⟨hsbc, hcmp⟩ := List.of_mem_zip hf
  have hmodes : ((Forms.sbc d8 addr).zip (Forms.cmp d8 addr)).map (fun f => f.1.2) =
      ((Forms.sbc d8 addr).zip (Forms.cmp d8 addr)).map fun f => f.2.2 := rfl
  exact ⟨hsbc, hcmp, List.map_inj_left.mp hmodes f hf⟩

/-- Settles O49: both take the same byte from A, and with C set SBC has no borrow to take as well. -/
theorem sbcAfterSecAgreesWithCmp : Obligations.SbcAfterSecAgreesWithCmp := by
  intro s t u d8 addr f hf hc ht hu
  obtain ⟨hsbc, hcmp, hsame⟩ := sbc_zip_cmp hf
  obtain rfl := Host.Outcome.next.inj ((exec_sbc hsbc s).symm.trans ht)
  obtain rfl := Host.Outcome.next.inj ((exec_cmp hcmp s).symm.trans hu)
  rw [subtractWithBorrow_eq, compareWith_eq, hsame, Status.addCore_complement_compare hc]
  exact ⟨rfl, rfl, rfl⟩

/-! ## Logic and bit test -/

/-- Settles O50: every form derives N and Z from the new A. -/
theorem logicOperations : Obligations.LogicOperations := fun s _ _ =>
  ⟨fun f hf => by rw [exec_and hf, logicA_eq, Status.setNZ_eq_withNZ],
   fun f hf => by rw [exec_ora hf, logicA_eq, Status.setNZ_eq_withNZ],
   fun f hf => by rw [exec_eor hf, logicA_eq, Status.setNZ_eq_withNZ]⟩

/-- Settles O51: the operand is one read of the bus the mode's resolution left, and the flags of BIT stand in numbers. -/
theorem bitTest : Obligations.BitTest := by
  intro s d8 addr f hf ea r v
  rw [exec_bit hf, testBits_eq, Status.bitTest_eq]
  rfl

/-! ## Shifts -/

/-- Settles O52: each mnemonic's function in numbers, whatever its target. -/
theorem shiftsAndRotates : Obligations.ShiftsAndRotates := fun s _ _ =>
  ⟨fun f hf => by rw [exec_asl hf, shiftTarget_eq_shifted fun v => shiftAsl_eq v s.p.c],
   fun f hf => by rw [exec_lsr hf, shiftTarget_eq_shifted fun v => shiftLsr_eq v s.p.c],
   fun f hf => by rw [exec_rol hf, shiftTarget_eq_shifted fun v => shiftRol_eq v s.p.c],
   fun f hf => by rw [exec_ror hf, shiftTarget_eq_shifted fun v => shiftRor_eq v s.p.c]⟩

end Sys2Proof.Machine

/-! # Proofs of the stack and system family (49_stack_system)

First the meaning of each instruction, through the shared operation it is made of; then what a list of bytes pushed to plain RAM gives
back; then the statements, the trap and the return from it after the operations on one byte. -/

namespace Sys2Proof.Machine

/-! ## The meaning of every stack and system instruction -/

section StackSystem
variable (s : State)

theorem exec_pha : exec .pha s = .next (s.push s.a) := rfl

theorem exec_pla : exec .pla s = .next { s.pull.2 with a := s.pull.1, p := s.pull.2.p.setNZ s.pull.1 } := rfl

theorem exec_php : exec .php s = .next (s.push s.p.pack) := rfl

theorem exec_plp : exec .plp s = .next { s.pull.2 with p := s.pull.2.p.unpack s.pull.1 } := rfl

theorem exec_brk : exec .brk s = .next (s.takeTrap (s.pc + 1) s.p.pack Config.brkVector) := rfl

theorem exec_rti : exec .rti s = .next s.returnFromTrap := rfl

theorem exec_nop : exec .nop s = .next s := rfl

theorem exec_unimpl (opcode : Byte) : exec (.unimpl opcode) s = .fault (.unimplementedOpcode opcode (s.pc - 1)) := rfl

end StackSystem

/-! ## Push and pull of a byte -/

section PushPull
variable (s : State) (v : Byte)

@[simp] theorem State.push_sp : (s.push v).sp = s.sp - 1 := rfl

@[simp] theorem State.push_bus : (s.push v).bus = s.bus.write (stackAddr s.sp) v := rfl

@[simp] theorem State.pull_value : s.pull.1 = s.bus.peek (stackAddr (s.sp + 1)) := rfl

@[simp] theorem State.pull_sp : s.pull.2.sp = s.sp + 1 := rfl

@[simp] theorem State.pull_p : s.pull.2.p = s.p := rfl

@[simp] theorem State.pull_bus : s.pull.2.bus = (s.bus.read (stackAddr (s.sp + 1))).2 := rfl

end PushPull

/-- Settles O53: one push, and one pull from whose byte N and Z are derived. -/
theorem pushAndPullAccumulator : Obligations.PushAndPullAccumulator := fun s =>
  ⟨by rw [exec_pha, State.push_eq, Forms.also], by rw [exec_pla, Status.setNZ_eq_withNZ, State.pull_eq]; rfl⟩

/-- Settles O54: one push of the packed status, and one pull whose byte is unpacked. -/
theorem pushAndPullStatus : Obligations.PushAndPullStatus := fun s =>
  ⟨by rw [exec_php, State.push_eq, Forms.also], by rw [exec_plp, Status.unpack, State.pull_eq]; rfl⟩

/-! ## NOP and the unimplemented bytes -/

/-- Settles O59: the meaning of NOP is the state it is given. -/
theorem nopDoesNothing : Obligations.NopDoesNothing := exec_nop

/-- Settles O13: the table's entry for the byte is the marker, whose row faults. -/
theorem unimplementedByteFaults : Obligations.UnimplementedByteFaults :=
  ⟨fun _ => step_unimplemented, fun opcode s => exec_unimpl s opcode⟩

/-! ## What pushes to plain RAM give back -/

/-- The state after a list of bytes is pushed, the last one first: pulls get them in the order of the list. -/
def State.stacking (s : State) : List Byte → State
  | [] => s
  | v :: vs => (s.stacking vs).push v

section Stacking
variable (s : State) (vs : List Byte)

theorem State.stacking_sp : (s.stacking vs).sp = s.sp - BitVec.ofNat 8 vs.length := by
  induction vs with
  | nil => simp [State.stacking]
  | cons v vs ih => simp [State.stacking, ih, BitVec.ofNat_add, BitVec.sub_sub]

@[simp] theorem State.stacking_map : (s.stacking vs).bus.map = s.bus.map := by
  induction vs with
  | nil => rfl
  | cons v vs ih => rw [State.stacking, State.push_bus, Bus.write_map, ih]

end Stacking

theorem plainRam_ne_device {b : Bus} {as : List Word} (h : Forms.plainRam b as) {a : Word} (ha : a ∈ as) :
    (b.place a).kind ≠ .device := by
  obtain ⟨hram, -⟩ := h
  simp [hram a ha]

theorem plainRam_append_singleton {b : Bus} {as : List Word} {a : Word} (h : Forms.plainRam b (as ++ [a])) :
    Forms.plainRam b as ∧ (b.place a).kind = .ram ∧ ∀ c ∈ as, (b.place c).cell ≠ (b.place a).cell := by
  obtain ⟨hram, hcells⟩ := h
  obtain ⟨hcells, -, hother⟩ := List.pairwise_append.mp hcells
  exact ⟨⟨fun c hc => hram c (by simp [hc]), hcells⟩, hram a (by simp), fun c hc => hother c hc a (by simp)⟩

/-- Bytes pushed to plain RAM, and left there, are what the next pulls get: a pull changes no byte that memory answers, and the
location of each push is no mirror of the earlier ones. -/
theorem pullsBack_of_stacking {s r : State} {vs : List Byte} (hplain : Forms.plainRam s.bus (Forms.stackBelow s vs.length))
    (hmap : r.bus.map = s.bus.map) (hsp : r.sp = (s.stacking vs).sp)
    (hkept : ∀ a ∈ Forms.stackBelow s vs.length, r.bus.peek a = (s.stacking vs).bus.peek a) : Forms.pullsBack r vs := by
  induction vs generalizing r with
  | nil => trivial
  | cons v vs ih =>
    rw [List.length_cons, stackBelow_succ, ← State.stacking_sp] at hplain hkept
    obtain ⟨hplain, hram, hother⟩ := plainRam_append_singleton hplain
    have hup : r.sp + 1 = (s.stacking vs).sp := hsp ▸ BitVec.sub_add_cancel _ 1
    have hplace : ∀ a, r.bus.place a = s.bus.place a := Bus.place_congr hmap
    have hplaceStacked : ∀ a, (s.stacking vs).bus.place a = s.bus.place a := Bus.place_congr (s.stacking_map vs)
    refine ⟨?_, ih hplain ((Bus.read_map _ _).trans hmap) hup fun a ha => ?_⟩
    · rw [State.pull_value, hup, hkept _ (by simp)]
      exact Bus.peek_write_same (hplaceStacked _ ▸ hram) v
    · have hmemory : (s.bus.place a).kind ≠ .device := plainRam_ne_device hplain ha
      calc r.pull.2.bus.peek a
        _ = r.bus.peek a := Bus.peek_read _ _ _ (hplace a ▸ hmemory)
        _ = ((s.stacking vs).push v).bus.peek a := hkept a (List.mem_append_left _ ha)
        _ = (s.stacking vs).bus.peek a := by
          rw [State.push_bus, Bus.peek_write _ _ _ _ (hplaceStacked a ▸ hmemory), if_neg]
          simp [hplaceStacked, hother a ha]

/-- The same of an instruction that pushes the bytes and may then read the bus, as taking a trap does. -/
theorem pullsBack_of_stackLeft_stacking {s t r : State} {vs : List Byte} (hmap : t.bus.map = s.bus.map)
    (hpeek : ∀ a, (s.bus.place a).kind ≠ .device → t.bus.peek a = (s.stacking vs).bus.peek a)
    (hsp : r.sp = (s.stacking vs).sp) (h : Forms.stackLeft s t r vs.length) : Forms.pullsBack r vs := by
  obtain ⟨hplain, hrmap, hkept⟩ := h
  exact pullsBack_of_stacking hplain (hrmap.trans hmap) hsp fun a ha =>
    (hkept a ha).trans (hpeek a (plainRam_ne_device hplain ha))

/-- Settles O55: both ways the pull gets the packed status PHP pushed, and unpacking it gives the six flags. -/
theorem plpRestoresAfterPhp : Obligations.PlpRestoresAfterPhp := by
  intro s t r h hsp hstack
  obtain rfl : s.push s.p.pack = t := Host.Outcome.next.inj h
  have hpulls : Forms.pullsBack r [s.p.pack] :=
    hstack.elim id (pullsBack_of_stackLeft_stacking (s.stacking_map [s.p.pack]) (fun _ _ => rfl) hsp)
  obtain ⟨hbyte, -⟩ := hpulls
  refine ⟨_, exec_plp r, ?_, ?_⟩
  · rw [hbyte, Status.unpack_pack, State.pull_p]
  · rw [State.pull_sp, hsp, State.push_sp, BitVec.sub_add_cancel]

/-! ## The trap -/

theorem byte_sub_one_sub_one (b : Byte) : b - 1 - 1 = b - 2 := by bv_omega

theorem byte_sub_two_sub_one (b : Byte) : b - 2 - 1 = b - 3 := by bv_omega

theorem byte_add_two_add_one (b : Byte) : b + 2 + 1 = b + 3 := BitVec.add_assoc b 2 1

/-- The bus after a trap's three pushes (R214). -/
def State.trapPushed (s : State) (ret : Word) (status : Byte) : Bus :=
  ((s.bus.write (stackAddr s.sp) (highByte ret)).write (stackAddr (s.sp - 1)) (lowByte ret)).write (stackAddr (s.sp - 2)) status

/-- Everything taking a trap does. -/
theorem State.takeTrap_eq_record (s : State) (ret : Word) (status : Byte) (vector : Word) :
    let lo := (s.trapPushed ret status).read vector
    let hi := lo.2.read (vector + 1)
    s.takeTrap ret status vector = { s with
      pc := joinBytes hi.1 lo.1, sp := s.sp - 3, p := { s.p with i := true }, bus := hi.2,
      out := Forms.also s.out
        [.write (stackAddr s.sp) (highByte ret), .write (stackAddr (s.sp - 1)) (lowByte ret),
         .write (stackAddr (s.sp - 2)) status, .read vector lo.1, .read (vector + 1) hi.1] } := by
  simp only [State.takeTrap_eq, State.read16_eq, State.pushWord_eq, State.push_eq, State.trapPushed, byte_sub_one_sub_one,
    byte_sub_two_sub_one, Forms.also, List.append_assoc, List.cons_append, List.nil_append, Bus.read_value]

/-- Settles O56: BRK takes the trap at the vector 0xFFFE with the packed status and PC plus 1. -/
theorem brkTakesTheTrap : Obligations.BrkTakesTheTrap := by
  intro s
  have hnext : Config.brkVector + 1 = 0xFFFF := by decide
  rw [exec_brk, State.takeTrap_eq_record, hnext]
  rfl

/-! ## Return from the trap -/

/-- Settles O57: the three reads are those of `returnFromTrap`. -/
theorem rtiReturnsFromTrap : Obligations.RtiReturnsFromTrap := by
  intro s
  simp only [exec_rti, State.returnFromTrap_eq, byte_add_one_add_one, byte_add_two_add_one, Status.unpack, Forms.also,
    List.append_assoc, List.cons_append, List.nil_append, Bus.read_value]

/-- A return from a trap whose pulls get a status byte and the two bytes of a word resumes at that word. -/
theorem State.returnFromTrap_of_pullsBack {r : State} {status : Byte} {w : Word}
    (h : Forms.pullsBack r [status, lowByte w, highByte w]) :
    r.returnFromTrap.pc = w ∧ r.returnFromTrap.p = r.p.unpack status := by
  obtain ⟨hstatus, hword⟩ := h
  exact ⟨State.pullWord_of_pullsBack hword, congrArg r.p.unpack hstatus⟩

theorem State.returnFromTrap_sp (s : State) : s.returnFromTrap.sp = s.sp + 3 := by
  rw [State.returnFromTrap_eq, byte_add_one_add_one, byte_add_two_add_one]

/-- A trap pushes three bytes and then reads the two of its vector. -/
theorem State.takeTrap_bus (s : State) (ret : Word) (status : Byte) (vector : Word) :
    (s.takeTrap ret status vector).bus =
      (((s.stacking [status, lowByte ret, highByte ret]).bus.read vector).2.read (vector + 1)).2 := rfl

/-- The vector's reads change no byte that memory answers. -/
theorem State.takeTrap_peek {s : State} {a : Word} (h : (s.bus.place a).kind ≠ .device) (ret : Word) (status : Byte)
    (vector : Word) :
    (s.takeTrap ret status vector).bus.peek a = (s.stacking [status, lowByte ret, highByte ret]).bus.peek a := by
  have hplace := Bus.place_congr (s.stacking_map [status, lowByte ret, highByte ret]) a
  rw [State.takeTrap_bus, Bus.peek_read, Bus.peek_read]
  all_goals simpa [hplace] using h

/-- Settles O58: both ways the three pulls get the bytes BRK pushed, the status with the old I among them. -/
theorem rtiResumesAfterBrk : Obligations.RtiResumesAfterBrk := by
  intro s t r h hsp hstack
  obtain rfl : s.takeTrap (s.pc + 1) s.p.pack Config.brkVector = t := Host.Outcome.next.inj h
  have hmap : (s.takeTrap (s.pc + 1) s.p.pack Config.brkVector).bus.map = s.bus.map := by
    rw [State.takeTrap_bus, Bus.read_map, Bus.read_map, State.stacking_map]
  have hpulls : Forms.pullsBack r [s.p.pack, lowByte (s.pc + 1), highByte (s.pc + 1)] :=
    hstack.elim id (pullsBack_of_stackLeft_stacking hmap (fun _ ha => State.takeTrap_peek ha _ _ _) hsp)
  obtain ⟨hpc, hp⟩ := State.returnFromTrap_of_pullsBack hpulls
  refine ⟨_, exec_rti r, hpc, ?_, ?_⟩
  · rw [State.returnFromTrap_sp, hsp, State.takeTrap_eq_record]
    exact BitVec.sub_add_cancel s.sp 3
  · rw [hp, Status.unpack_pack]

end Sys2Proof.Machine

/-! # Proofs of the exception and reset families (60_exceptions, 70_reset_and_hazards)

First which instructions and steps complete; then how a run ends; then the host's interrupts and its reset. -/

namespace Sys2Proof.Machine

/-! ## What completes -/

/-- Every instruction but the unimplemented one completes: each shape answers a next state. -/
theorem exec_completes {i : Instr} (h : i.mnemonic ≠ .UNIMPL) (s : State) : ∃ t, exec i s = .next t := by
  have hshape := exec_shape i s
  generalize exec i s = r at hshape ⊢
  cases hshape with
  | unimpl opcode => exact absurd rfl h
  | _ => exact ⟨_, rfl⟩

/-- Settles O14: an official opcode byte decodes to an instruction of an official row, whatever follows it. -/
theorem officialOpcodeCompletes : Obligations.OfficialOpcodeCompletes := by
  intro s h
  rw [← State.byteAt_zero] at h
  obtain ⟨i, rest, hdecode, hofficial⟩ := decode_official h (s.byteAt 1) (s.byteAt 2)
  rw [stepRunsTheDecodedInstruction s i rest (bytesAtPC_eq s ▸ hdecode)]
  exact exec_completes hofficial.mnemonic _

/-! ## How a run ends -/

/-- A run whose first step faults is that fault. -/
theorem run_succ_of_fault {s : State} {f : Fault} (h : step s = .fault f) (k : Nat) :
    Host.Core.run core (k + 1) s = .fault f := by
  simp only [Host.Core.run, Host.Check.core_step, h]

/-- A run whose first step completes goes on from the state it answers. -/
theorem run_succ_of_next {s u : State} (h : step s = .next u) (k : Nat) :
    Host.Core.run core (k + 1) s = Host.Core.run core k u := by
  simp only [Host.Core.run, Host.Check.core_step, h]

/-- Settles O15, by induction over the steps: the first one faults at an unimplemented byte or leads to a shorter run. -/
theorem runEndsOnlyAtUnimplementedByte : Obligations.RunEndsOnlyAtUnimplementedByte := by
  intro k
  induction k with
  | zero => exact fun s => ⟨nofun, nofun⟩
  | succ k ih =>
    intro s
    by_cases hbyte : s.bus.peek s.pc ∈ unimplementedBytes
    · rw [run_succ_of_fault (step_unimplemented hbyte)]
      refine ⟨nofun, fun f hf => ⟨0, s, k.succ_pos, runsTo_zero.mpr rfl, hbyte, ?_⟩⟩
      exact (Host.Outcome.fault.inj hf).symm
    · obtain ⟨u, hu⟩ := officialOpcodeCompletes s hbyte
      obtain ⟨hrefused, hfault⟩ := ih u
      rw [run_succ_of_next hu]
      refine ⟨hrefused, fun f hf => ?_⟩
      obtain ⟨j, t, hj, hruns, hends⟩ := hfault f hf
      exact ⟨j + 1, t, Nat.succ_lt_succ hj, runsTo_succ.mpr ⟨u, hu, hruns⟩, hends⟩

/-! ## The host's interrupts -/

theorem State.hostIrq_masked {s : State} (h : s.p.i = true) : s.hostIrq = s := if_pos h

theorem State.hostIrq_unmasked {s : State} (h : s.p.i = false) :
    s.hostIrq = s.takeTrap s.pc s.p.packForInterrupt Config.brkVector := by simp [State.hostIrq, h]

/-- Settles O60: both moves take the trap with PC and the packed status with bit 4 clear, each at its vector. -/
theorem hostInterruptsEnterHandler : Obligations.HostInterruptsEnterHandler := by
  intro s
  refine ⟨State.hostIrq_masked, fun q hq => ?_⟩
  have htrap : q.1 = s.takeTrap s.pc s.p.packForInterrupt q.2 := by
    cases hi : s.p.i with
    | true =>
      obtain rfl : q = (s.hostNmi, 0xFFFA) := by simpa [hi] using hq
      rfl
    | false =>
      obtain rfl | rfl : q = (s.hostNmi, 0xFFFA) ∨ q = (s.hostIrq, 0xFFFE) := by simpa [hi] using hq
      · rfl
      · exact State.hostIrq_unmasked hi
  rw [htrap, State.takeTrap_eq_record]
  exact ⟨rfl, rfl, rfl, rfl, rfl, rfl, rfl⟩

/-! ## The host's reset -/

/-- Settles O19: the host's reset, like `State.reset`, is `State.afterReset` over the bus it finds. -/
theorem hostResetLeavesSpecifiedState : Obligations.HostResetLeavesSpecifiedState := by
  have hnext : Config.resetVector + 1 = 0xFFFD := by decide
  refine ⟨fun draw s => ?_, .zero, { State.reset with bus := Bus.flat }, rfl, rfl, ?_⟩
  · rw [State.hostReset_eq, State.afterReset, hnext]
    rfl
  · rw [State.hostReset_eq, State.reset]

end Sys2Proof.Machine
